-- ==== Sys2Proof/Word.lean ====
section
/-! DEFINITION. The bit-vector widths that cross the command link (spec 11.8) and the pixel component. -/

namespace Sys2Proof

/-- One byte on the SPI command link. -/
abbrev Byte := BitVec 8

/-- A two-byte number of a command body or a reply. -/
abbrev Half := BitVec 16

/-- A four-byte number: frame numbers, sequences, arrival numbers, pixel words. All of them wrap. -/
abbrev Word := BitVec 32

/-- A pixel of 10-bit components, 0..1023 (spec 11.8, pixel word). -/
structure Pixel where
  red : BitVec 10
  green : BitVec 10
  blue : BitVec 10
deriving DecidableEq, Repr, Inhabited

/-- Component 0 at every colour: the black of R142 and R154. -/
abbrev Pixel.black : Pixel := ⟨0, 0, 0⟩

end Sys2Proof
end

