-- ==== Sys2Proof/Syntax.lean ====
section
/-! DEFINITION. The commands and events of spec/opcode_table.json, one constructor of `Instr` a row.

A command row stands for the rise of CS# that takes a frame of that command code (R186): its operands are the
frame's header, its modifier entries and the fields of its body, each field at the width of R188. Fields stay raw
numbers, so that every code a host can send is a term and is judged by the command's own checks. The row
UNKNOWN_COMMAND carries the clocked bytes themselves. An event row carries what the event brings from outside. -/

namespace Sys2Proof

/-- A modifier entry (11.8): code byte and 32-bit value. -/
structure Modifier where
  code : Byte
  value : Word
deriving DecidableEq, Repr

/-- What every structured command frame carries: the timebase time of the rise of CS# that takes it (log 6), the
source byte and the modifier entries in order of appearance. -/
structure Header where
  time : Nat
  source : Byte
  mods : List Modifier
deriving DecidableEq, Repr

/-- A selector as a body carries it (2.7): group, first element, count, offset. -/
structure SelectorField where
  group : Byte
  first : Half
  count : Half
  offset : Byte
deriving DecidableEq, Repr

/-- Body of SET_POINT (2.3). A master of 255 is none; the offset is two's complement. -/
structure SetPointBody where
  point : Half
  kind : Byte
  home : Half
  curve : Byte
  master : Byte
  offset : Half
  member : Byte
deriving DecidableEq, Repr

/-- The binding of a BIND_POINT body (2.4). -/
inductive BindingField where
  | unbound
  | lamp (line : Byte) (slot : Half) (width : Byte)
  | tile (tile : Byte) (param : Byte)
  | unknown (code : Byte)
deriving DecidableEq, Repr

/-- Body of DEFINE_GROUP (R31). -/
structure DefineGroupBody where
  group : Byte
  base : Half
  count : Half
  stride : Byte
deriving DecidableEq, Repr

/-- Body of SET_SOURCE (3.4). -/
structure SetSourceBody where
  target : Byte
  priority : Byte
  ceiling : Byte
  quota : Byte
  mayForce : Byte
  lossFade : Half
  reload : Byte
deriving DecidableEq, Repr

/-- Body of TAKE (11.8). The value form is 0 UNIFORM or 1 LIST. -/
structure TakeBody where
  name : Half
  selector : SelectorField
  form : Byte
  fadeIn : Half
  fadeOut : Half
  policy : Byte
  targets : List Half
deriving DecidableEq, Repr

/-- The address of RELEASE, PAUSE and RESUME (R68). -/
inductive AddressField where
  | handle (slot gen : Byte)
  | name (name : Half)
  | unknown (code : Byte)
deriving DecidableEq, Repr

/-- The address of READ_CONTRIBUTION (R77). -/
inductive ReadAddressField where
  | handle (slot gen : Byte)
  | ownerName (owner : Byte) (name : Half)
  | slot (slot : Byte)
  | unknown (code : Byte)
deriving DecidableEq, Repr

/-- A read window: first item and count. -/
structure Window where
  first : Half
  count : Half
deriving DecidableEq, Repr

/-- The fields a FIRST part of LOAD_PLATE carries (R146). -/
structure PlateFirst where
  width : Half
  height : Half
  hold : Byte
  endMode : Byte
deriving DecidableEq, Repr

/-- A plate descriptor entry (11.8). -/
structure DescriptorField where
  address : Word
  lines : Half
  marks : Byte
  pad : Byte
deriving DecidableEq, Repr

/-- Body of LOAD_PLATE (R146). The part is 0 FIRST or 1 NEXT. -/
structure LoadPlateBody where
  plate : Byte
  part : Byte
  last : Byte
  first : Option PlateFirst
  descriptors : List DescriptorField
deriving DecidableEq, Repr

/-- Body of SET_TILE (R155). -/
structure SetTileBody where
  tile : Byte
  enabled : Byte
  link : Byte
  place : Byte
  cropX : Half
  cropY : Half
  dissolve : Byte
deriving DecidableEq, Repr

/-- A single level, or the base and step of a FAN. -/
inductive LevelField where
  | level (v : Half)
  | fan (base step : Half)
  | unknown (code : Byte)
deriving DecidableEq, Repr

/-- A cue trigger as LOAD_CUE carries it (R166). -/
inductive TriggerField where
  | go
  | atFrame (frame : Word)
  | follow (delay : Half)
  | unknown (code : Byte)
deriving DecidableEq, Repr

/-- A TAKE action's fields (R168). A priority of 255 is DEFAULT. -/
structure TakeActionField where
  name : Half
  selector : SelectorField
  value : LevelField
  priority : Byte
  fadeIn : Half
  fadeOut : Half
  policy : Byte
deriving DecidableEq, Repr

/-- One action of a LOAD_CUE body (R168). -/
inductive ActionField where
  | take (b : TakeActionField)
  | release (name : Half) (fade : Option Half)
  | releaseSource
  | pause (name : Half)
  | resume (name : Half)
  | forceSet (selector : SelectorField) (mode : Byte) (value : LevelField)
  | forceClear (selector : SelectorField)
  | freeze (group : Byte)
  | thaw (group : Byte)
  | masterSet (master : Byte) (target : Half) (fade : Half)
  | platePlay (plate : Byte)
  | plateStop (plate : Byte)
  | unknown (code : Byte)
deriving DecidableEq, Repr

/-- Body of LOAD_CUE (R170). The mode is 0 NEW or 1 APPEND; a NEW part carries the trigger. -/
structure LoadCueBody where
  cue : Half
  list : Byte
  mode : Byte
  trigger : Option TriggerField
  actions : List ActionField
deriving DecidableEq, Repr

/-- The position of LINK_CUE (R172). -/
inductive PositionField where
  | tail
  | after (cue : Half)
  | unknown (code : Byte)
deriving DecidableEq, Repr

/-- One constructor for each row of spec/opcode_table.json, in the table's order. -/
inductive Instr where
  | transactionBegin
  | unknownCommand (time : Nat) (bytes : List Byte)
  | nop (h : Header)
  | readEvents (h : Header)
  | setEventMask (h : Header) (mask : Half)
  | softClear (h : Header)
  | softClearComplete
  | setTiming (h : Header) (rate enable : Byte) (limit : Half)
  | setFrame (h : Header) (value : Word)
  | readTiming (h : Header)
  | setPoint (h : Header) (b : SetPointBody)
  | setPointApply
  | bindPoint (h : Header) (point : Half) (binding : BindingField)
  | bindPointApply
  | loadCurve (h : Header) (curve : Byte) (knots : List Half)
  | loadCurveApply
  | defineGroup (h : Header) (b : DefineGroupBody)
  | readPoint (h : Header) (point : Half)
  | readGroup (h : Header) (group : Byte)
  | readCurve (h : Header) (curve : Byte)
  | setSource (h : Header) (b : SetSourceBody)
  | setSupervision (h : Header) (interval : Byte)
  | touch (h : Header)
  | readSource (h : Header) (target clear : Byte)
  | take (h : Header) (b : TakeBody)
  | takeApply
  | release (h : Header) (address : AddressField)
  | releaseApply
  | releaseSource (h : Header) (target : Byte)
  | releaseSourceApply
  | pause (h : Header) (address : AddressField)
  | pauseApply
  | resume (h : Header) (address : AddressField)
  | resumeApply
  | readContribution (h : Header) (address : ReadAddressField) (window : Option Window)
  | flush (h : Header) (target : Byte) (arrival : Option Word)
  | readQueue (h : Header) (first count : Byte)
  | forceSet (h : Header) (selector : SelectorField) (mode : Byte) (value : Half)
  | forceSetApply
  | forceClear (h : Header) (selector : SelectorField)
  | forceClearApply
  | freeze (h : Header) (group : Byte)
  | freezeApply
  | thaw (h : Header) (group : Byte)
  | thawApply
  | masterSet (h : Header) (master : Byte) (target fade : Half)
  | masterSetApply
  | setWorklightLevel (h : Header) (level : Half)
  | setWorklightLevelApply
  | readOverrides (h : Header) (window : Option Window)
  | setLine (h : Header) (line enabled : Byte) (count : Half) (rate : Byte)
  | readLine (h : Header) (line clear : Byte)
  | setInput (h : Header) (input enabled : Byte)
  | readInput (h : Header) (input clear : Byte)
  | loadPlate (h : Header) (b : LoadPlateBody)
  | platePlay (h : Header) (plate : Byte)
  | platePlayApply
  | plateStop (h : Header) (plate : Byte)
  | plateStopApply
  | setTile (h : Header) (b : SetTileBody)
  | setTileApply
  | setLink (h : Header) (link wake : Byte) (idle : Half)
  | readTile (h : Header) (tile clear : Byte)
  | readLink (h : Header) (link clear : Byte)
  | readPlate (h : Header) (plate clear : Byte) (window : Option Window)
  | loadCue (h : Header) (b : LoadCueBody)
  | linkCue (h : Header) (list : Byte) (cue : Half) (position : PositionField)
  | unlinkCue (h : Header) (cue : Half)
  | eraseCue (h : Header) (cue : Half)
  | setList (h : Header) (list acting loop : Byte)
  | startList (h : Header) (list : Byte)
  | stopList (h : Header) (list : Byte)
  | go (h : Header) (list : Byte)
  | readCue (h : Header) (cue : Half) (window : Option Window)
  | readList (h : Header) (list : Byte)
  | resetFall
  | resetRise
  | initialisationEnd (time : Nat)
  | refPulse (time : Nat)
  | lossDeadline
  | localTimerExpiry
  | holdoverEnd
  | sourceLost (source : Fin 5)
  | fadeInComplete (slot : Fin 192)
  | fadeOutComplete (slot : Fin 192)
  | masterFadeEnd (master : Fin 4)
  | cueFire
  | plateHoldExpiry (plate : Fin 8)
  | dissolveEnd (tile : Fin 64)
  | linkWakeComplete (link : Fin 4)
  | renderComplete
  | linkIdleExpiry (link : Fin 4)
  | lineFrameEnd (line : Fin 8)
  | tilePacketEnd (link : Fin 4)
  | readCompletion (words : List Word)
  | readError
  | wltChange (asserted : Bool)
  | signalPresentChange (input : Fin 4) (present : Bool)
deriving DecidableEq, Repr

end Sys2Proof
end

