-- ==== Sys2Proof/Decode.lean ====
section
/-! DEFINITION. The byte layouts of spec 11.8 and R188: the bytes of a command frame, from a structured command row and
back. No row of spec/opcode_table.json gives bits, so `decodeTableWord` answers none; the frame decoder below is what
the row UNKNOWN_COMMAND runs over the bytes it takes. Layouts the spec does not tabulate follow R188's encoding in the
order the chapter lists the fields (log 9). -/

namespace Sys2Proof

/-- The command a table word spells. No row of the table carries bits (the reader's count n_rows_with_fixed is 0). -/
def decodeTableWord (_nbits _w : Nat) : Option Instr := none

/-- A two-byte number, most significant byte first (R188). -/
def be16 (x : Half) : List Byte := [x.extractLsb' 8 8, x.extractLsb' 0 8]

/-- A four-byte number, most significant byte first (R188). -/
def be32 (x : Word) : List Byte :=
  [x.extractLsb' 24 8, x.extractLsb' 16 8, x.extractLsb' 8 8, x.extractLsb' 0 8]

/-- Two bytes read as a number, the first the more significant. -/
def word16 (a b : Byte) : Half := a ++ b

/-- Four bytes read as a number, the first the most significant. -/
def word32 (a b c d : Byte) : Word := a ++ b ++ c ++ d

def SelectorField.encode (x : SelectorField) : List Byte := [x.group] ++ be16 x.first ++ be16 x.count ++ [x.offset]

def AddressField.encode : AddressField → List Byte
  | .handle s g => [0, s, g]
  | .name n => 1 :: be16 n
  | .unknown c => [c]

def ReadAddressField.encode : ReadAddressField → List Byte
  | .handle s g => [0, s, g]
  | .ownerName o n => [1, o] ++ be16 n
  | .slot s => [2, s]
  | .unknown c => [c]

def BindingField.encode : BindingField → List Byte
  | .unbound => [0]
  | .lamp l s w => [1, l] ++ be16 s ++ [w]
  | .tile t p => [2, t, p]
  | .unknown c => [c]

def LevelField.encode : LevelField → List Byte
  | .level v => 0 :: be16 v
  | .fan b s => [1] ++ be16 b ++ be16 s
  | .unknown c => [c]

def TriggerField.encode : TriggerField → List Byte
  | .go => [0]
  | .atFrame f => 1 :: be32 f
  | .follow d => 2 :: be16 d
  | .unknown c => [c]

def PositionField.encode : PositionField → List Byte
  | .tail => [0]
  | .after c => 1 :: be16 c
  | .unknown c => [c]

/-- An optional two-byte field whose range takes the all-ones value: a presence byte, then the field (R188). -/
def optional16 : Option Half → List Byte
  | some v => 1 :: be16 v
  | none => [0, 255, 255]

def optional32 : Option Word → List Byte
  | some v => 1 :: be32 v
  | none => [0, 255, 255, 255, 255]

def ActionField.encode : ActionField → List Byte
  | .take b => [0] ++ be16 b.name ++ b.selector.encode ++ b.value.encode ++ [b.priority] ++ be16 b.fadeIn ++
      be16 b.fadeOut ++ [b.policy]
  | .release n f => [1] ++ be16 n ++ optional16 f
  | .releaseSource => [2]
  | .pause n => 3 :: be16 n
  | .resume n => 4 :: be16 n
  | .forceSet x m v => [5] ++ x.encode ++ [m] ++ v.encode
  | .forceClear x => 6 :: x.encode
  | .freeze g => [7, g]
  | .thaw g => [8, g]
  | .masterSet m t f => [9, m] ++ be16 t ++ be16 f
  | .platePlay p => [10, p]
  | .plateStop p => [11, p]
  | .unknown c => [c]

def DescriptorField.encode (d : DescriptorField) : List Byte := be32 d.address ++ be16 d.lines ++ [d.marks, d.pad]

def PlateFirst.encode (f : PlateFirst) : List Byte := be16 f.width ++ be16 f.height ++ [f.hold, f.endMode]

/-- A window of two-byte fields; an absent one carries no bytes (log 9). -/
def window22 : Option Window → List Byte
  | some w => be16 w.first ++ be16 w.count
  | none => []

def window21 : Option Window → List Byte
  | some w => be16 w.first ++ [w.count.extractLsb' 0 8]
  | none => []

def window11 : Option Window → List Byte
  | some w => [w.first.extractLsb' 0 8, w.count.extractLsb' 0 8]
  | none => []

/-- The header of a structured command row; none for an event row and for the raw frame. -/
def Instr.header? : Instr → Option Header
  | .nop h | .readEvents h | .setEventMask h _ | .softClear h | .setTiming h _ _ _ | .setFrame h _ | .readTiming h
  | .setPoint h _ | .bindPoint h _ _ | .loadCurve h _ _ | .defineGroup h _ | .readPoint h _ | .readGroup h _
  | .readCurve h _ | .setSource h _ | .setSupervision h _ | .touch h | .readSource h _ _ | .take h _ | .release h _
  | .releaseSource h _ | .pause h _ | .resume h _ | .readContribution h _ _ | .flush h _ _ | .readQueue h _ _
  | .forceSet h _ _ _ | .forceClear h _ | .freeze h _ | .thaw h _ | .masterSet h _ _ _ | .setWorklightLevel h _
  | .readOverrides h _ | .setLine h _ _ _ _ | .readLine h _ _ | .setInput h _ _ | .readInput h _ _ | .loadPlate h _
  | .platePlay h _ | .plateStop h _ | .setTile h _ | .setLink h _ _ _ | .readTile h _ _ | .readLink h _ _
  | .readPlate h _ _ _ | .loadCue h _ | .linkCue h _ _ _ | .unlinkCue h _ | .eraseCue h _ | .setList h _ _ _
  | .startList h _ | .stopList h _ | .go h _ | .readCue h _ _ | .readList h _ => some h
  | .transactionBegin | .unknownCommand _ _ | .softClearComplete | .setPointApply | .bindPointApply
  | .loadCurveApply | .takeApply | .releaseApply | .releaseSourceApply | .pauseApply | .resumeApply | .forceSetApply
  | .forceClearApply | .freezeApply | .thawApply | .masterSetApply | .setWorklightLevelApply | .platePlayApply
  | .plateStopApply | .setTileApply | .resetFall | .resetRise | .initialisationEnd _ | .refPulse _ | .lossDeadline
  | .localTimerExpiry | .holdoverEnd | .sourceLost _ | .fadeInComplete _ | .fadeOutComplete _ | .masterFadeEnd _
  | .cueFire | .plateHoldExpiry _ | .dissolveEnd _ | .linkWakeComplete _ | .renderComplete | .linkIdleExpiry _
  | .lineFrameEnd _ | .tilePacketEnd _ | .readCompletion _ | .readError | .wltChange _
  | .signalPresentChange _ _ => none

/-- The command code of the command summary (11.7); none for an event row and for the raw frame. -/
def Instr.code? : Instr → Option Byte
  | .nop _ => some 0x01
  | .readEvents _ => some 0x02
  | .setEventMask _ _ => some 0x03
  | .softClear _ => some 0x04
  | .setTiming _ _ _ _ => some 0x08
  | .setFrame _ _ => some 0x09
  | .readTiming _ => some 0x0A
  | .setPoint _ _ => some 0x10
  | .bindPoint _ _ _ => some 0x11
  | .loadCurve _ _ _ => some 0x12
  | .defineGroup _ _ => some 0x13
  | .readPoint _ _ => some 0x14
  | .readGroup _ _ => some 0x15
  | .readCurve _ _ => some 0x16
  | .setSource _ _ => some 0x18
  | .setSupervision _ _ => some 0x19
  | .touch _ => some 0x1A
  | .readSource _ _ _ => some 0x1B
  | .take _ _ => some 0x20
  | .release _ _ => some 0x21
  | .releaseSource _ _ => some 0x22
  | .pause _ _ => some 0x23
  | .resume _ _ => some 0x24
  | .readContribution _ _ _ => some 0x25
  | .flush _ _ _ => some 0x28
  | .readQueue _ _ _ => some 0x29
  | .forceSet _ _ _ _ => some 0x30
  | .forceClear _ _ => some 0x31
  | .freeze _ _ => some 0x32
  | .thaw _ _ => some 0x33
  | .masterSet _ _ _ _ => some 0x34
  | .setWorklightLevel _ _ => some 0x35
  | .readOverrides _ _ => some 0x36
  | .setLine _ _ _ _ _ => some 0x38
  | .readLine _ _ _ => some 0x39
  | .setInput _ _ _ => some 0x40
  | .readInput _ _ _ => some 0x41
  | .loadPlate _ _ => some 0x42
  | .platePlay _ _ => some 0x43
  | .plateStop _ _ => some 0x44
  | .setTile _ _ => some 0x45
  | .setLink _ _ _ _ => some 0x46
  | .readTile _ _ _ => some 0x47
  | .readLink _ _ _ => some 0x48
  | .readPlate _ _ _ _ => some 0x49
  | .loadCue _ _ => some 0x50
  | .linkCue _ _ _ _ => some 0x51
  | .unlinkCue _ _ => some 0x52
  | .eraseCue _ _ => some 0x53
  | .setList _ _ _ _ => some 0x54
  | .startList _ _ => some 0x55
  | .stopList _ _ => some 0x56
  | .go _ _ => some 0x57
  | .readCue _ _ _ => some 0x58
  | .readList _ _ => some 0x59
  | .transactionBegin | .unknownCommand _ _ | .softClearComplete | .setPointApply | .bindPointApply
  | .loadCurveApply | .takeApply | .releaseApply | .releaseSourceApply | .pauseApply | .resumeApply | .forceSetApply
  | .forceClearApply | .freezeApply | .thawApply | .masterSetApply | .setWorklightLevelApply | .platePlayApply
  | .plateStopApply | .setTileApply | .resetFall | .resetRise | .initialisationEnd _ | .refPulse _ | .lossDeadline
  | .localTimerExpiry | .holdoverEnd | .sourceLost _ | .fadeInComplete _ | .fadeOutComplete _ | .masterFadeEnd _
  | .cueFire | .plateHoldExpiry _ | .dissolveEnd _ | .linkWakeComplete _ | .renderComplete | .linkIdleExpiry _
  | .lineFrameEnd _ | .tilePacketEnd _ | .readCompletion _ | .readError | .wltChange _
  | .signalPresentChange _ _ => none

/-- The codes of the command summary (11.7). -/
def commandCodes : List Byte :=
  [0x01, 0x02, 0x03, 0x04, 0x08, 0x09, 0x0A, 0x10, 0x11, 0x12, 0x13, 0x14, 0x15, 0x16, 0x18, 0x19, 0x1A, 0x1B] ++
  [0x20, 0x21, 0x22, 0x23, 0x24, 0x25, 0x28, 0x29, 0x30, 0x31, 0x32, 0x33, 0x34, 0x35, 0x36, 0x38, 0x39] ++
  [0x40, 0x41, 0x42, 0x43, 0x44, 0x45, 0x46, 0x47, 0x48, 0x49] ++
  [0x50, 0x51, 0x52, 0x53, 0x54, 0x55, 0x56, 0x57, 0x58, 0x59]

/-- The modifier codes a command takes (11.3): 1 PRIO, 2 AT, 3 DELAY, 4 FADE, 5 FAN; none on an immediate command. -/
def allowedModifiers (code : Byte) : List Byte :=
  if code = 0x20 then [1, 2, 3, 4, 5]
  else if code = 0x30 then [2, 3, 5]
  else if code ∈ ([0x21, 0x22, 0x34] : List Byte) then [2, 3, 4]
  else if code ∈ ([0x10, 0x11, 0x12, 0x23, 0x24, 0x31, 0x32, 0x33, 0x35, 0x43, 0x44, 0x45] : List Byte) then [2, 3]
  else []

/-- The bytes of a structured command row's body (R188). Event rows and the raw frame have none. -/
def Instr.bodyBytes : Instr → List Byte
  | .setEventMask _ m => be16 m
  | .setTiming _ r e l => [r, e] ++ be16 l
  | .setFrame _ v => be32 v
  | .setPoint _ b => be16 b.point ++ [b.kind] ++ be16 b.home ++ [b.curve, b.master] ++ be16 b.offset ++ [b.member]
  | .bindPoint _ p b => be16 p ++ b.encode
  | .loadCurve _ c ks => c :: ks.flatMap be16
  | .defineGroup _ b => [b.group] ++ be16 b.base ++ be16 b.count ++ [b.stride]
  | .readPoint _ p => be16 p
  | .readGroup _ g => [g]
  | .readCurve _ c => [c]
  | .setSource _ b => [b.target, b.priority, b.ceiling, b.quota, b.mayForce] ++ be16 b.lossFade ++ [b.reload]
  | .setSupervision _ i => [i]
  | .readSource _ t c => [t, c]
  | .take _ b => be16 b.name ++ b.selector.encode ++ [b.form] ++ be16 b.fadeIn ++ be16 b.fadeOut ++ [b.policy] ++
      b.targets.flatMap be16
  | .release _ a => a.encode
  | .releaseSource _ t => [t]
  | .pause _ a => a.encode
  | .resume _ a => a.encode
  | .readContribution _ a w => a.encode ++ window22 w
  | .flush _ t a => t :: optional32 a
  | .readQueue _ f c => [f, c]
  | .forceSet _ x m v => x.encode ++ [m] ++ be16 v
  | .forceClear _ x => x.encode
  | .freeze _ g => [g]
  | .thaw _ g => [g]
  | .masterSet _ m t f => [m] ++ be16 t ++ be16 f
  | .setWorklightLevel _ v => be16 v
  | .readOverrides _ w => window22 w
  | .setLine _ l e c r => [l, e] ++ be16 c ++ [r]
  | .readLine _ l c => [l, c]
  | .setInput _ i e => [i, e]
  | .readInput _ i c => [i, c]
  | .loadPlate _ b => [b.plate, b.part, b.last] ++ (b.first.map PlateFirst.encode).getD [] ++
      b.descriptors.flatMap DescriptorField.encode
  | .platePlay _ p => [p]
  | .plateStop _ p => [p]
  | .setTile _ b => [b.tile, b.enabled, b.link, b.place] ++ be16 b.cropX ++ be16 b.cropY ++ [b.dissolve]
  | .setLink _ l w i => [l, w] ++ be16 i
  | .readTile _ t c => [t, c]
  | .readLink _ l c => [l, c]
  | .readPlate _ p c w => [p, c] ++ window21 w
  | .loadCue _ b => be16 b.cue ++ [b.list, b.mode] ++ (b.trigger.map TriggerField.encode).getD [] ++
      b.actions.flatMap ActionField.encode
  | .linkCue _ l c p => [l] ++ be16 c ++ p.encode
  | .unlinkCue _ c => be16 c
  | .eraseCue _ c => be16 c
  | .setList _ l a p => [l, a, p]
  | .startList _ l => [l]
  | .stopList _ l => [l]
  | .go _ l => [l]
  | .readCue _ c w => be16 c ++ window11 w
  | .readList _ l => [l]
  | .transactionBegin | .unknownCommand _ _ | .nop _ | .readEvents _ | .softClear _ | .softClearComplete
  | .readTiming _ | .touch _ | .setPointApply | .bindPointApply
  | .loadCurveApply | .takeApply | .releaseApply | .releaseSourceApply | .pauseApply | .resumeApply | .forceSetApply
  | .forceClearApply | .freezeApply | .thawApply | .masterSetApply | .setWorklightLevelApply | .platePlayApply
  | .plateStopApply | .setTileApply | .resetFall | .resetRise | .initialisationEnd _ | .refPulse _ | .lossDeadline
  | .localTimerExpiry | .holdoverEnd | .sourceLost _ | .fadeInComplete _ | .fadeOutComplete _ | .masterFadeEnd _
  | .cueFire | .plateHoldExpiry _ | .dissolveEnd _ | .linkWakeComplete _ | .renderComplete | .linkIdleExpiry _
  | .lineFrameEnd _ | .tilePacketEnd _ | .readCompletion _ | .readError | .wltChange _
  | .signalPresentChange _ _ => []

/-- A modifier entry's five bytes (11.8). -/
def Modifier.encode (m : Modifier) : List Byte := m.code :: be32 m.value

/-- The bytes of a structured command row's frame (11.8); none for other rows. -/
def encodeFrame (i : Instr) : Option (List Byte) :=
  match i.header?, i.code? with
  | some h, some c =>
    some ([c, h.source, BitVec.ofNat 8 h.mods.length] ++ be16 (BitVec.ofNat 16 i.bodyBytes.length) ++
      h.mods.flatMap Modifier.encode ++ i.bodyBytes)
  | _, _ => none

/-- Step 7 of R186 on a structured row: the variable parts have the length the fixed fields ask for; an unknown
TAKE form asks for none (DESIGN CHOICE, log 36). -/
def Instr.bodyLengthMatches : Instr → Bool
  | .loadCurve _ _ ks => ks.length == 17
  | .take _ b => if b.form = 0 then b.targets.length == 1 else if b.form = 1 then b.targets.length == b.selector.count.toNat else true
  | .loadPlate _ b => b.first.isSome == (b.part == 0)
  | .loadCue _ b => b.trigger.isSome == (b.mode == 0)
  | _ => true

/-! ### Reading a frame -/

/-- The pieces of a frame whose lengths agree (R186, check 2). -/
structure RawFrame where
  code : Byte
  source : Byte
  mods : List Modifier
  body : List Byte
deriving DecidableEq, Repr

/-- The first `n` five-byte modifier entries and the bytes behind them. -/
def readModifiers : Nat → List Byte → Option (List Modifier × List Byte)
  | 0, bs => some ([], bs)
  | n + 1, c :: a :: b :: d :: e :: bs =>
    (readModifiers n bs).map fun r => (⟨c, word32 a b d e⟩ :: r.1, r.2)
  | _ + 1, _ => none

/-- Check 2 of R186: a frame of at least 5 bytes whose stated length is clocked, at most 1,100 bytes, and followed by
zeros only. None is BAD_LENGTH. -/
def splitFrame : List Byte → Option RawFrame
  | code :: source :: count :: l1 :: l0 :: rest =>
    let bodyLength := (word16 l1 l0).toNat
    if 5 + 5 * count.toNat + bodyLength > 1100 then none
    else match readModifiers count.toNat rest with
      | none => none
      | some (mods, tail) =>
        if tail.length < bodyLength then none
        else if (tail.drop bodyLength).all (· == 0) then some ⟨code, source, mods, tail.take bodyLength⟩
        else none
  | _ => none

def readSelector : List Byte → Option (SelectorField × List Byte)
  | g :: a1 :: a0 :: c1 :: c0 :: o :: bs => some (⟨g, word16 a1 a0, word16 c1 c0, o⟩, bs)
  | _ => none

/-- An address of RELEASE, PAUSE and RESUME: a type code, 0 handle or 1 name, and the fields of that type alone, 2 bytes
in both; 11.8 tabulates no layout (DESIGN CHOICE, log 9). -/
def readAddress : List Byte → Option AddressField
  | [t, a, b] => if t = 0 then some (.handle a b) else if t = 1 then some (.name (word16 a b)) else some (.unknown t)
  | t :: _ => if t = 0 ∨ t = 1 then none else some (.unknown t)
  | [] => none

def readBinding : List Byte → Option BindingField
  | t :: bs =>
    if t = 0 then (if bs = [] then some .unbound else none)
    else if t = 1 then (match bs with | [l, s1, s0, w] => some (.lamp l (word16 s1 s0) w) | _ => none)
    else if t = 2 then (match bs with | [n, p] => some (.tile n p) | _ => none)
    else some (.unknown t)
  | [] => none

/-- A value of a cue action (R168): a form code, 0 one level or 1 FAN, and the fields of that form alone, 2 or 4 bytes;
11.8 tabulates no layout (DESIGN CHOICE, log 9). -/
def readLevel : List Byte → Option (LevelField × List Byte)
  | t :: bs =>
    if t = 0 then (match bs with | a :: b :: r => some (.level (word16 a b), r) | _ => none)
    else if t = 1 then (match bs with | a :: b :: c :: d :: r => some (.fan (word16 a b) (word16 c d), r) | _ => none)
    else some (.unknown t, bs)
  | [] => none

/-- A cue's trigger in LOAD_CUE (R170): a code and the fields of that kind alone, so GO is 1 byte, AT_FRAME 5 and FOLLOW
3; 11.8 tabulates no layout (DESIGN CHOICE, log 9). -/
def readTrigger : List Byte → Option (TriggerField × List Byte)
  | t :: bs =>
    if t = 0 then some (.go, bs)
    else if t = 1 then (match bs with | a :: b :: c :: d :: r => some (.atFrame (word32 a b c d), r) | _ => none)
    else if t = 2 then (match bs with | a :: b :: r => some (.follow (word16 a b), r) | _ => none)
    else some (.unknown t, bs)
  | [] => none

/-- The position of LINK_CUE (R172): TAIL is its code alone, with no byte of a second cue; AFTER is its code and the
second cue's number; 11.8 tabulates no layout (DESIGN CHOICE, log 9). -/
def readPosition : List Byte → Option PositionField
  | t :: bs =>
    if t = 0 then (if bs = [] then some .tail else none)
    else if t = 1 then (match bs with | [a, b] => some (.after (word16 a b)) | _ => none)
    else some (.unknown t)
  | [] => none

/-- Two-byte numbers to the end of the body. -/
def readHalves : List Byte → Option (List Half)
  | [] => some []
  | a :: b :: bs => (readHalves bs).map (word16 a b :: ·)
  | [_] => none

def readDescriptors : List Byte → Option (List DescriptorField)
  | [] => some []
  | a :: b :: c :: d :: l1 :: l0 :: m :: p :: bs =>
    (readDescriptors bs).map (⟨word32 a b c d, word16 l1 l0, m, p⟩ :: ·)
  | _ => none

/-- The tail of a TAKE action, behind its value. -/
def readTakeAction (name : Half) (x : SelectorField) (v : LevelField) : List Byte → Option (ActionField × List Byte)
  | p :: i1 :: i0 :: o1 :: o0 :: q :: bs => some (.take ⟨name, x, v, p, word16 i1 i0, word16 o1 o0, q⟩, bs)
  | _ => none

/-- One action of a LOAD_CUE body and the bytes behind it. A RELEASE action's presence byte is read as FLUSH's is: 1 with a
fade, 0 with any two bytes, and another value matches no length (DESIGN CHOICE, log 9). -/
def readAction : List Byte → Option (ActionField × List Byte)
  | t :: bs =>
    match t.toNat, bs with
    | 0, n1 :: n0 :: bs =>
      match readSelector bs with
      | some (x, bs) => (match readLevel bs with | some (v, bs) => readTakeAction (word16 n1 n0) x v bs | none => none)
      | none => none
    | 1, n1 :: n0 :: p :: f1 :: f0 :: bs =>
      if p = 1 then some (.release (word16 n1 n0) (some (word16 f1 f0)), bs)
      else if p = 0 then some (.release (word16 n1 n0) none, bs) else none
    | 2, bs => some (.releaseSource, bs)
    | 3, n1 :: n0 :: bs => some (.pause (word16 n1 n0), bs)
    | 4, n1 :: n0 :: bs => some (.resume (word16 n1 n0), bs)
    | 5, bs =>
      match readSelector bs with
      | some (x, m :: bs) => (readLevel bs).map fun r => (.forceSet x m r.1, r.2)
      | _ => none
    | 6, bs => (readSelector bs).map fun r => (.forceClear r.1, r.2)
    | 7, g :: bs => some (.freeze g, bs)
    | 8, g :: bs => some (.thaw g, bs)
    | 9, m :: t1 :: t0 :: f1 :: f0 :: bs => some (.masterSet m (word16 t1 t0) (word16 f1 f0), bs)
    | 10, p :: bs => some (.platePlay p, bs)
    | 11, p :: bs => some (.plateStop p, bs)
    | n, _ => if n < 12 then none else some (.unknown t, [])
  | [] => none

/-- Actions to the end of the body; the fuel bounds the number of actions (each takes at least one byte). -/
def readActions : Nat → List Byte → Option (List ActionField)
  | _, [] => some []
  | 0, _ => none
  | n + 1, bs => match readAction bs with
    | some (a, rest) => (readActions n rest).map (a :: ·)
    | none => none

def readWindow22 : List Byte → Option (Option Window)
  | [] => some none
  | [a, b, c, d] =>
    if word16 a b = 0xFFFF ∧ word16 c d = 0xFFFF then some none else some (some ⟨word16 a b, word16 c d⟩)
  | _ => none

def readWindow21 : List Byte → Option (Option Window)
  | [] => some none
  | [a, b, c] => if word16 a b = 0xFFFF ∧ c = 255 then some none else some (some ⟨word16 a b, c.setWidth 16⟩)
  | _ => none

def readWindow11 : List Byte → Option (Option Window)
  | [] => some none
  | [a, b] => if a = 255 ∧ b = 255 then some none else some (some ⟨a.setWidth 16, b.setWidth 16⟩)
  | _ => none

/-- The bytes of a READ_CONTRIBUTION address and what follows it. -/
def readReadAddress : List Byte → Option (ReadAddressField × List Byte)
  | t :: bs =>
    if t = 0 then (match bs with | a :: b :: r => some (.handle a b, r) | _ => none)
    else if t = 1 then (match bs with | o :: a :: b :: r => some (.ownerName o (word16 a b), r) | _ => none)
    else if t = 2 then (match bs with | a :: r => some (.slot a, r) | _ => none)
    else some (.unknown t, [])
  | [] => none

def readTakeBody : List Byte → Option TakeBody
  | n1 :: n0 :: bs => match readSelector bs with
    | some (x, f :: i1 :: i0 :: o1 :: o0 :: p :: bs) =>
      (readHalves bs).map fun ts => ⟨word16 n1 n0, x, f, word16 i1 i0, word16 o1 o0, p, ts⟩
    | _ => none
  | _ => none

def readLoadPlate : List Byte → Option LoadPlateBody
  | p :: part :: last :: bs =>
    if part = 0 then match bs with
      | w1 :: w0 :: h1 :: h0 :: hold :: e :: bs =>
        (readDescriptors bs).map fun ds => ⟨p, part, last, some ⟨word16 w1 w0, word16 h1 h0, hold, e⟩, ds⟩
      | _ => none
    else (readDescriptors bs).map fun ds => ⟨p, part, last, none, ds⟩
  | _ => none

/-- LOAD_CUE's body (R170): cue, list, mode, for NEW the trigger, then the actions up to the body's end, with no count of
them (DESIGN CHOICE, log 9). A mode other than NEW is read as APPEND (DESIGN CHOICE, log 36). -/
def readLoadCue : List Byte → Option LoadCueBody
  | c1 :: c0 :: l :: m :: bs =>
    if m = 0 then match readTrigger bs with
      | some (t, bs) => (readActions bs.length bs).map fun as => ⟨word16 c1 c0, l, m, some t, as⟩
      | none => none
    else (readActions bs.length bs).map fun as => ⟨word16 c1 c0, l, m, none, as⟩
  | _ => none

/-- Step 7 of R186 over bytes: the structured row of a known command code, or none where the body's length does not
match the command's fields. FLUSH's presence byte is part of that length: 1 with an arrival number, 0 with any four bytes,
and another value matches no length (DESIGN CHOICE, log 9). A body whose type, form or kind code is unknown gives no fields
to measure; which lengths match there, so that check 8 judges the body, is log 36 (DESIGN CHOICE). -/
def decodeBody (h : Header) (code : Byte) (body : List Byte) : Option Instr :=
  match code.toNat, body with
  | 0x01, [] => some (.nop h)
  | 0x02, [] => some (.readEvents h)
  | 0x03, [a, b] => some (.setEventMask h (word16 a b))
  | 0x04, [] => some (.softClear h)
  | 0x08, [r, e, l1, l0] => some (.setTiming h r e (word16 l1 l0))
  | 0x09, [a, b, c, d] => some (.setFrame h (word32 a b c d))
  | 0x0A, [] => some (.readTiming h)
  | 0x10, [p1, p0, k, v1, v0, c, m, o1, o0, w] =>
    some (.setPoint h ⟨word16 p1 p0, k, word16 v1 v0, c, m, word16 o1 o0, w⟩)
  | 0x11, p1 :: p0 :: bs => (readBinding bs).map (.bindPoint h (word16 p1 p0))
  | 0x12, c :: bs => (readHalves bs).map (.loadCurve h c)
  | 0x13, [g, b1, b0, c1, c0, s] => some (.defineGroup h ⟨g, word16 b1 b0, word16 c1 c0, s⟩)
  | 0x14, [p1, p0] => some (.readPoint h (word16 p1 p0))
  | 0x15, [g] => some (.readGroup h g)
  | 0x16, [c] => some (.readCurve h c)
  | 0x18, [t, d, c, q, m, l1, l0, r] => some (.setSource h ⟨t, d, c, q, m, word16 l1 l0, r⟩)
  | 0x19, [i] => some (.setSupervision h i)
  | 0x1A, [] => some (.touch h)
  | 0x1B, [t, c] => some (.readSource h t c)
  | 0x20, bs => (readTakeBody bs).map (.take h)
  | 0x21, bs => (readAddress bs).map (.release h)
  | 0x22, [t] => some (.releaseSource h t)
  | 0x23, bs => (readAddress bs).map (.pause h)
  | 0x24, bs => (readAddress bs).map (.resume h)
  | 0x25, bs => match readReadAddress bs with
    | some (a, r) => (readWindow22 r).map (.readContribution h a)
    | none => none
  | 0x28, [t, p, a, b, c, d] =>
    if p = 1 then some (.flush h t (some (word32 a b c d))) else if p = 0 then some (.flush h t none) else none
  | 0x29, [f, c] => some (.readQueue h f c)
  | 0x30, bs => match readSelector bs with
    | some (x, [m, v1, v0]) => some (.forceSet h x m (word16 v1 v0))
    | _ => none
  | 0x31, bs => match readSelector bs with
    | some (x, []) => some (.forceClear h x)
    | _ => none
  | 0x32, [g] => some (.freeze h g)
  | 0x33, [g] => some (.thaw h g)
  | 0x34, [m, t1, t0, f1, f0] => some (.masterSet h m (word16 t1 t0) (word16 f1 f0))
  | 0x35, [a, b] => some (.setWorklightLevel h (word16 a b))
  | 0x36, bs => (readWindow22 bs).map (.readOverrides h)
  | 0x38, [l, e, c1, c0, r] => some (.setLine h l e (word16 c1 c0) r)
  | 0x39, [l, c] => some (.readLine h l c)
  | 0x40, [i, e] => some (.setInput h i e)
  | 0x41, [i, c] => some (.readInput h i c)
  | 0x42, bs => (readLoadPlate bs).map (.loadPlate h)
  | 0x43, [p] => some (.platePlay h p)
  | 0x44, [p] => some (.plateStop h p)
  | 0x45, [t, e, l, p, x1, x0, y1, y0, d] => some (.setTile h ⟨t, e, l, p, word16 x1 x0, word16 y1 y0, d⟩)
  | 0x46, [l, w, i1, i0] => some (.setLink h l w (word16 i1 i0))
  | 0x47, [t, c] => some (.readTile h t c)
  | 0x48, [l, c] => some (.readLink h l c)
  | 0x49, p :: c :: bs => (readWindow21 bs).map (.readPlate h p c)
  | 0x50, bs => (readLoadCue bs).map (.loadCue h)
  | 0x51, l :: c1 :: c0 :: bs => (readPosition bs).map (.linkCue h l (word16 c1 c0))
  | 0x52, [c1, c0] => some (.unlinkCue h (word16 c1 c0))
  | 0x53, [c1, c0] => some (.eraseCue h (word16 c1 c0))
  | 0x54, [l, a, p] => some (.setList h l a p)
  | 0x55, [l] => some (.startList h l)
  | 0x56, [l] => some (.stopList h l)
  | 0x57, [l] => some (.go h l)
  | 0x58, c1 :: c0 :: bs => (readWindow11 bs).map (.readCue h (word16 c1 c0))
  | 0x59, [l] => some (.readList h l)
  | _, _ => none

end Sys2Proof
end

