-- ==== Sys2Proof/Machine/Arith.lean ====
section
/-! DEFINITION. The two rounding rules of the Conventions (R99, R100), the wrapping comparison of frame numbers and
sequences (R15, R55), and the narrowings the chapters name. -/

namespace Sys2Proof.Machine

/-- Rounded mix of d × e / F (Conventions; R99): the magnitude, rounded to nearest with ties away from zero, under the
sign of d. -/
def roundedMix (d : Int) (e F : Nat) : Int :=
  let m : Int := ((d.natAbs * e + F / 2) / F : Nat)
  if d < 0 then -m else m

/-- `a` plus the rounded mix of (b − a) × e / F, a level when `a` and `b` are (R99). -/
def mixLevel (a b e F : Nat) : Nat := ((a : Int) + roundedMix ((b : Int) - a) e F).toNat

/-- Level product (Conventions; R100). -/
def levelProduct (a b : Nat) : Nat := (a * b + 32767) / 65535

/-- a − b modulo 2^32 read as a signed number (R15). -/
def signedDiff (a b : Word) : Int := (a - b).toInt

/-- Frame or sequence `a` is before `b` (R15, R55). -/
def isBefore (a b : Word) : Bool := signedDiff a b < 0

/-- A whole number brought into 0..65535 (R56, R112). -/
def clampLevel (x : Int) : Nat := if x < 0 then 0 else if x > 65535 then 65535 else x.toNat

/-- A count that stops at a limit (R44, R133, R142, R190). -/
def saturate (limit n : Nat) : Nat := if n < limit then n + 1 else limit

/-- The nominal frame period of a rate code in timebase units (Conventions). -/
def nominalPeriod (rate : Nat) : Nat :=
  if rate = 0 then 1125000 else if rate = 1 then 1080000 else if rate = 2 then 900900 else if rate = 3 then 900000
  else if rate = 4 then 540000 else if rate = 5 then 450450 else 450000

end Sys2Proof.Machine
end

