-- ==== Sys2Proof/Machine/Table.lean ====
section
/-! DEFINITION. The one container every numbered store of the part is held in: a list of (number, record) pairs with
strictly rising numbers, in which a record that equals what its number holds by default is not listed. Equal stores are
then equal lists, and a store at its reset contents is the empty list. -/

namespace Sys2Proof.Machine

/-- A numbered store, sparse over a default contents that its accessors supply. -/
structure Table (α : Type) where
  entries : List (Nat × α)
deriving DecidableEq, Repr

/-- A store at its default contents. -/
abbrev Table.empty {α : Type} : Table α := ⟨[]⟩

/-- The record listed under a number. -/
def lookupEntry {α : Type} (k : Nat) : List (Nat × α) → Option α
  | [] => none
  | (j, v) :: rest => if j = k then some v else lookupEntry k rest

/-- List a record under a number, in rising order, in place of one already there. -/
def insertEntry {α : Type} (k : Nat) (v : α) : List (Nat × α) → List (Nat × α)
  | [] => [(k, v)]
  | (j, w) :: rest =>
    if k < j then (k, v) :: (j, w) :: rest
    else if k = j then (k, v) :: rest
    else (j, w) :: insertEntry k v rest

/-- Unlist a number. -/
def eraseEntry {α : Type} (k : Nat) : List (Nat × α) → List (Nat × α)
  | [] => []
  | (j, w) :: rest => if j = k then eraseEntry k rest else (j, w) :: eraseEntry k rest

/-- Read a number: the listed record, or the default contents there. -/
def Table.get {α : Type} (t : Table α) (dflt : Nat → α) (k : Nat) : α := (lookupEntry k t.entries).getD (dflt k)

/-- Write a number; writing the default contents unlists it, so the form stays canonical. -/
def Table.set {α : Type} [DecidableEq α] (t : Table α) (dflt : Nat → α) (k : Nat) (v : α) : Table α :=
  if v = dflt k then ⟨eraseEntry k t.entries⟩ else ⟨insertEntry k v t.entries⟩

/-- The canonical store whose numbers below `n` hold `f` and whose other numbers hold the default. -/
def Table.ofFn {α : Type} [DecidableEq α] (dflt : Nat → α) (n : Nat) (f : Nat → α) : Table α :=
  ⟨(List.range n).filterMap fun k => if f k = dflt k then none else some (k, f k)⟩

/-- Rewrite every listed record, canonically: the records of a store whose default stays what it is. -/
def Table.mapListed {α : Type} [DecidableEq α] (t : Table α) (dflt : Nat → α) (f : Nat → α → α) : Table α :=
  ⟨t.entries.filterMap fun e => if f e.1 e.2 = dflt e.1 then none else some (e.1, f e.1 e.2)⟩

/-- The numbers rise strictly. -/
def risingEntries {α : Type} : List (Nat × α) → Bool
  | [] => true
  | [_] => true
  | a :: b :: rest => a.1 < b.1 && risingEntries (b :: rest)

/-- The canonical form: rising numbers, and no listed record equal to the default contents there. -/
def Table.wf {α : Type} [DecidableEq α] (t : Table α) (dflt : Nat → α) : Bool :=
  risingEntries t.entries && t.entries.all fun e => e.2 != dflt e.1

end Sys2Proof.Machine
end

