-- ==== Sys2Proof/Machine/Records.lean ====
section
/-! DEFINITION. The records the blocks hold (00_scope, functional overview), each with the fields its chapter's table
gives, and each store's contents after RESET#. A field marked "model's own" is bookkeeping of this model, not state the
spec names: INVENTORY.md lists them. -/

namespace Sys2Proof.Machine

/-! ### Frame Timer (R1) -/

inductive TimerState where
  | freeRun | acquiring | locked | holdover
deriving DecidableEq, Repr

inductive CameFrom where
  | freeRun | holdover
deriving DecidableEq, Repr

inductive UnlockCause where
  | none | loss | drift | command
deriving DecidableEq, Repr

/-- The Frame Timer's state (R1), the flag delivered at the last frame start (R16), and `expiryDue`, model's own: the
holdover count has reached the limit at the last frame start and the expiry of R11 is not yet taken (log 4). -/
structure Timer where
  state : TimerState
  cameFrom : CameFrom
  rate : Nat
  refEnable : Bool
  holdoverLimit : Nat
  holdoverCount : Nat
  acquireCount : Nat
  badRun : Nat
  heldPeriod : Nat
  localPeriod : Nat
  lastPulse : Option Nat
  lastInterval : Option Nat
  lastFrameStart : Nat
  unlockCause : UnlockCause
  counter : Word
  pendingFrame : Option Word
  timedFromRef : Bool
  expiryDue : Bool
deriving DecidableEq, Repr

/-- The POR column of R1. -/
def Timer.por : Timer :=
  { state := .freeRun, cameFrom := .freeRun, rate := 1, refEnable := false, holdoverLimit := 1500, holdoverCount := 0,
    acquireCount := 0, badRun := 0, heldPeriod := 1080000, localPeriod := 1080000, lastPulse := none,
    lastInterval := none, lastFrameStart := 0, unlockCause := .none, counter := 0, pendingFrame := none,
    timedFromRef := false, expiryDue := false }

/-! ### Point Table (R19, R21, R29, R34) -/

inductive Kind where
  | intensity | colour | control | source
deriving DecidableEq, Repr

inductive Param where
  | gain | red | green | blue | source
deriving DecidableEq, Repr

inductive Binding where
  | unbound
  | lamp (line slot width : Nat)
  | tile (tile : Nat) (param : Param)
deriving DecidableEq, Repr

/-- The configuration fields of a point but its binding, the fields SET_POINT replaces together (R24). -/
structure PointFields where
  kind : Kind
  home : Nat
  curve : Nat
  master : Option Nat
  offset : Int
  member : Bool
deriving DecidableEq, Repr

/-- A point's configuration record (R19). `retake` is model's own: the point's kind was changed at this frame start,
so the next render takes its held output anew (R114). -/
structure Point where
  fields : PointFields
  binding : Binding
  retake : Bool
deriving DecidableEq, Repr

/-- The POR column of R19. -/
def Point.por (_ : Nat) : Point :=
  { fields := { kind := .intensity, home := 0, curve := 0, master := none, offset := 0, member := false },
    binding := .unbound, retake := false }

/-- A handle: slot and generation (R54). -/
structure Handle where
  slot : Nat
  gen : Nat
deriving DecidableEq, Repr

/-- The Resolver's five result fields of a point (R98). -/
structure Result where
  merged : Nat
  output : Nat
  winner : Option Handle
  frozen : Bool
  held : Nat
deriving DecidableEq, Repr

/-- The "After RESET#" column of R98. -/
def Result.por (_ : Nat) : Result := { merged := 0, output := 0, winner := none, frozen := false, held := 0 }

/-- A group record (R29); count 0 is undefined. -/
structure Group where
  base : Nat
  count : Nat
  stride : Nat
deriving DecidableEq, Repr

/-- Group 0 is fixed over all points; the others are undefined after RESET# (R29). -/
def Group.por (g : Nat) : Group := if g = 0 then ⟨0, 2560, 1⟩ else ⟨0, 0, 1⟩

/-- The identity curve's knot outputs (R34). -/
def identityCurve : List Nat :=
  [0, 4096, 8192, 12288, 16384, 20480, 24576, 28672, 32768, 36864, 40960, 45056, 49152, 53248, 57344, 61440, 65535]

def Curve.por (_ : Nat) : List Nat := identityCurve

/-- An empty entry of the occupancy map (R21). -/
def Occupancy.por (_ : Nat) : Option Nat := none

/-! ### Source Table (R38) -/

inductive SourceState where
  | live | lost
deriving DecidableEq, Repr

structure Source where
  priority : Nat
  ceiling : Nat
  quota : Nat
  live : Nat
  mayForce : Bool
  lossFade : Nat
  reload : Nat
  counter : Nat
  state : SourceState
  applyFails : Nat
deriving DecidableEq, Repr

/-- The POR rows of R38. -/
def Source.por (n : Nat) : Source :=
  let row (p c q : Nat) (f : Bool) : Source :=
    { priority := p, ceiling := c, quota := q, live := 0, mayForce := f, lossFade := 50, reload := 0, counter := 0,
      state := .live, applyFails := 0 }
  if n = 0 then row 15 15 192 true else if n = 1 then row 8 12 64 true else if n = 2 then row 8 12 64 true
  else if n = 3 then row 8 12 64 false else row 4 8 64 false

/-! ### Contribution Table (R53) -/

inductive Phase where
  | pending | fadingIn | held | fadingOut
deriving DecidableEq, Repr

/-- A selector (2.7): group, first element, count, offset. -/
structure Selector where
  group : Nat
  first : Nat
  count : Nat
  offset : Nat
deriving DecidableEq, Repr

/-- A level for every covered point: one level, or a base and a step (R56, R120). -/
inductive LevelSpec where
  | level (v : Nat)
  | fan (base : Nat) (step : Int)
deriving DecidableEq, Repr

/-- A contribution's value form (R56); a LIST's targets lie in the Level Pool. -/
inductive ValueForm where
  | spec (v : LevelSpec)
  | list
deriving DecidableEq, Repr

inductive LossPolicy where
  | hold | release
deriving DecidableEq, Repr

inductive Origin where
  | command
  | cue (n : Nat)
deriving DecidableEq, Repr

/-- A contribution record that is not FREE (R53). `fadeOut` is R53's fade-out length, which a release replaces by its own
length (R67); `storedFadeOut` is the fade-out its TAKE stored, which a release leaves as it was (R187; log 30). `fresh` is model's own: the record entered its present state at the
frame start being taken, so this frame start's fade counting passes it by (R72) and it had no level in the last
render (R67). -/
structure Contribution where
  phase : Phase
  owner : Nat
  name : Nat
  priority : Nat
  sequence : Option Word
  selector : Selector
  form : ValueForm
  fadeIn : Nat
  fadeOut : Nat
  storedFadeOut : Nat
  elapsed : Nat
  remaining : Nat
  paused : Bool
  policy : LossPolicy
  origin : Origin
  effective : Word
  chain : List Nat
  fresh : Bool
deriving DecidableEq, Repr

/-- A contribution slot: its generation, and its record unless it is FREE (R53, R54). -/
structure Slot where
  gen : Nat
  record : Option Contribution
deriving DecidableEq, Repr

def Slot.por (_ : Nat) : Slot := ⟨0, none⟩

/-- An absent Name Index entry (R66). -/
def Name.por (_ : Nat) : Option Nat := none

/-- A Level Pool word nothing has written (log 13). -/
def PoolWord.por (_ : Nat) : Nat := 0

/-! ### Change Queue (R80) -/

inductive ForceMode where
  | park | cap | floor
deriving DecidableEq, Repr

/-- The address of RELEASE, PAUSE and RESUME (R68). -/
inductive Address where
  | handle (h : Handle)
  | name (n : Nat)
deriving DecidableEq, Repr

/-- The fields SET_TILE replaces together (R155). -/
structure TileFields where
  enabled : Bool
  link : Nat
  place : Nat
  cropX : Nat
  cropY : Nat
  dissolve : Nat
deriving DecidableEq, Repr

/-- The body of a Change Queue entry, by kind, as the arrival checks left it (R80). -/
inductive EntryBody where
  | take (h : Handle)
  | release (a : Address) (fade : Option Nat)
  | releaseSource (target : Nat) (fade : Option Nat)
  | pause (a : Address)
  | resume (a : Address)
  | setPoint (p : Nat) (f : PointFields)
  | bindPoint (p : Nat) (b : Binding)
  | loadCurve (c : Nat) (knots : List Nat)
  | forceSet (x : Selector) (m : ForceMode) (v : LevelSpec)
  | forceClear (x : Selector)
  | freeze (g : Nat)
  | thaw (g : Nat)
  | masterSet (m target fade : Nat)
  | setWorklightLevel (v : Nat)
  | platePlay (p : Nat)
  | plateStop (p : Nat)
  | setTile (t : Nat) (f : TileFields)
deriving DecidableEq, Repr

/-- The seventeen entry kinds, numbered from 0 as R80's table lists them. -/
inductive EntryKind where
  | take | release | releaseSource | pause | resume | setPoint | bindPoint | loadCurve | forceSet | forceClear
  | freeze | thaw | masterSet | setWorklightLevel | platePlay | plateStop | setTile
deriving DecidableEq, Repr

/-- A queue entry (R80). `due` is model's own: the entry is of the due set of the frame start being applied (R85). -/
structure Entry where
  source : Nat
  origin : Origin
  arrival : Word
  effective : Word
  body : EntryBody
  due : Bool
deriving DecidableEq, Repr

/-- Why an operation was dropped (R90, R91; codes of 11.4). -/
inductive FailReason where
  | notFound | tableFull | poolFull | quota | inUse
  | lost | kindMismatch | bindConflict | forceOwner | freezeLimit | notFrozen | plateUndefined
deriving DecidableEq, Repr

/-- The last failure record (R90). The arrival number is absent for a cue TAKE action dropped at firing. -/
structure Failure where
  arrival : Option Word
  kind : EntryKind
  source : Nat
  origin : Origin
  effective : Word
  frame : Word
  reason : FailReason
deriving DecidableEq, Repr

/-! ### Override Store (R118) -/

structure Force where
  mode : ForceMode
  value : Nat
  owner : Nat
deriving DecidableEq, Repr

/-- Mode NONE (R118). -/
def Force.por (_ : Nat) : Option Force := none

def Freeze.por (_ : Nat) : Nat := 0

inductive MasterState where
  | steady | fading
deriving DecidableEq, Repr

/-- A master record (R126). `fresh` is model's own: set at the frame start being taken, so not counted there (R129). -/
structure Master where
  state : MasterState
  level : Nat
  start : Nat
  target : Nat
  length : Nat
  elapsed : Nat
  fresh : Bool
deriving DecidableEq, Repr

/-- STEADY at 65535 (R118); start, length and elapsed are not used in STEADY and kept at 0. -/
def Master.por (_ : Nat) : Master :=
  { state := .steady, level := 65535, start := 0, target := 65535, length := 0, elapsed := 0, fresh := false }

/-! ### Lamp Line Transmitters (R133) -/

/-- A line frame in flight: sequence, slot count, rate code and the slot values (R133). -/
structure LineFrame where
  sequence : Nat
  count : Nat
  rate : Nat
  values : Table Nat
deriving DecidableEq, Repr

/-- A waiting set (R133). -/
structure LineSet where
  sequence : Nat
  values : Table Nat
deriving DecidableEq, Repr

/-- A line record (R133). The transmitter is SENDING exactly while a frame is in flight. -/
structure Line where
  enabled : Bool
  count : Nat
  rate : Nat
  sequence : Nat
  inFlight : Option LineFrame
  waiting : Option LineSet
  slips : Nat
  drops : Nat
deriving DecidableEq, Repr

/-- The POR column of R133; rate code 1 is 1 Mbit/s. -/
def Line.por (_ : Nat) : Line :=
  { enabled := false, count := 384, rate := 1, sequence := 0, inFlight := none, waiting := none, slips := 0, drops := 0 }

/-- A lamp slot that no point holds (R22). -/
def SlotValue.por (_ : Nat) : Nat := 0

/-! ### Tile Engine: inputs, tiles, links (R142, R154, R160) -/

/-- A live input (R142): the enabled field, the present level of the signal-present status (a pin), the last sample,
the shown state, the loss count. -/
structure Input where
  enabled : Bool
  pin : Bool
  sample : Bool
  shown : Bool
  losses : Nat
deriving DecidableEq, Repr

def Input.por (_ : Nat) : Input := { enabled := true, pin := false, sample := false, shown := false, losses := 0 }

/-- A 128 × 128 image by pixel number, line × 128 + column, black where not listed. -/
abbrev Image := Table Pixel

def Image.black (_ : Nat) : Pixel := Pixel.black

/-- A filled store (R154); `thisFrame` says that its fetch ended in the running frame (R165). -/
structure Store where
  image : Image
  thisFrame : Bool
deriving DecidableEq, Repr

/-- The five parameters a tile took at the last render complete (R154, R156). -/
structure TileParams where
  gain : Nat
  red : Nat
  green : Nat
  blue : Nat
  source : Nat
deriving DecidableEq, Repr

/-- A tile record (R154), with the frozen flag taken with SOURCE (R156). -/
structure Tile where
  fields : TileFields
  current : Nat
  fromSource : Option Nat
  elapsed : Nat
  params : TileParams
  frozen : Bool
  currentStore : Option Store
  fromStore : Option Store
  lastSent : Image
  fetchLate : Nat
deriving DecidableEq, Repr

def Tile.por (_ : Nat) : Tile :=
  { fields := { enabled := false, link := 0, place := 0, cropX := 0, cropY := 0, dissolve := 0 }, current := 0,
    fromSource := none, elapsed := 0, params := ⟨65535, 65535, 65535, 65535, 0⟩, frozen := false, currentStore := none,
    fromStore := none, lastSent := .empty, fetchLate := 0 }

/-- What an ACTIVE link frame's set holds for a place an enabled tile holds (R160; log 16). -/
structure TileSet where
  tile : Nat
  params : TileParams
  current : Nat
  fromSource : Option Nat
  elapsed : Nat
  dissolve : Nat
  cropX : Nat
  cropY : Nat
deriving DecidableEq, Repr

/-- The packets of a link frame (R160): one broadcast SLEEP, one broadcast BLACK, or sixteen by place. -/
inductive LinkContent where
  | sleep
  | black
  | active (places : List (Option TileSet))
deriving DecidableEq, Repr

/-- A link frame's set: its sequence, the render's frame number and timed-from-reference flag, its packets (R160).
`past` is model's own: a frame start has come since its render, so its packets go by the later fetch list (R152). -/
structure LinkFrame where
  sequence : Nat
  frame : Word
  timed : Bool
  content : LinkContent
  past : Bool
deriving DecidableEq, Repr

/-- A link frame in flight and the place of the packet being sent (R160). -/
structure LinkSending where
  frame : LinkFrame
  place : Nat
deriving DecidableEq, Repr

inductive LinkState where
  | standby | waking | active
deriving DecidableEq, Repr

/-- A link record (R160). The transmitter is SENDING exactly while a frame is in flight. -/
structure Link where
  state : LinkState
  wakeDelay : Nat
  idlePeriod : Nat
  wakeCount : Nat
  idleCount : Nat
  sequence : Nat
  inFlight : Option LinkSending
  waiting : Option LinkFrame
  slips : Nat
  drops : Nat
deriving DecidableEq, Repr

def Link.por (_ : Nat) : Link :=
  { state := .standby, wakeDelay := 20, idlePeriod := 0, wakeCount := 0, idleCount := 0, sequence := 0,
    inFlight := none, waiting := none, slips := 0, drops := 0 }

/-! ### Plate Player (R144, R145, R150) -/

inductive PlateState where
  | undefined | stopped | playing | ended | fault
deriving DecidableEq, Repr

inductive EndMode where
  | loop | holdLast | black
deriving DecidableEq, Repr

/-- A plate record (R144); the clip is its ordered list of descriptors (R145). Model's own: `wasPlaying`, the plate was
PLAYING before the application of the running frame start (R149); `cleared`, a SOFT_CLEAR has moved the plate or taken
it out of FAULT since the fetch list was formed, so no cut fetches it before the next list (R144). -/
structure Plate where
  state : PlateState
  loadOpen : Bool
  width : Nat
  height : Nat
  hold : Nat
  endMode : EndMode
  clip : List Nat
  image : Nat
  held : Nat
  late : Nat
  wasPlaying : Bool
  cleared : Bool
deriving DecidableEq, Repr

/-- UNDEFINED, no load open, late count 0 (R144); the fields the spec calls absent stand at 0 (log 1). -/
def Plate.por (_ : Nat) : Plate :=
  { state := .undefined, loadOpen := false, width := 0, height := 0, hold := 0, endMode := .loop, clip := [],
    image := 0, held := 0, late := 0, wasPlaying := false, cleared := false }

/-- A descriptor (R145). -/
structure Descriptor where
  address : Nat
  lines : Nat
  endOfImage : Bool
  endOfClip : Bool
deriving DecidableEq, Repr

def Descriptor.por (_ : Nat) : Descriptor := ⟨0, 0, false, false⟩

/-- A fetch of the frame's list (R150): the tile and the source value it was listed with, the frame-memory addresses of
the lines it has still to read, top line first, the columns it reads of each, the crop line its next read delivers, the
pixels read so far, and whether it has ended. -/
structure Fetch where
  tile : Nat
  source : Nat
  reads : List Nat
  columns : Nat
  line : Nat
  pixels : Image
  ended : Bool
deriving DecidableEq, Repr

/-! ### Cue Engine (R166, R168, R169) -/

inductive CueState where
  | empty | loaded | armed | fired
deriving DecidableEq, Repr

inductive Trigger where
  | go
  | atFrame (f : Word)
  | follow (d : Nat)
deriving DecidableEq, Repr

/-- A cue record (R166); lists are numbered 0 for A and 1 for B. -/
structure Cue where
  state : CueState
  list : Nat
  trigger : Trigger
  next : Option Nat
  chain : List Nat
  late : Bool
deriving DecidableEq, Repr

def Cue.por (_ : Nat) : Cue := { state := .empty, list := 0, trigger := .go, next := none, chain := [], late := false }

/-- A stored TAKE action (R168); priority none is DEFAULT. -/
structure TakeAction where
  name : Nat
  selector : Selector
  value : LevelSpec
  priority : Option Nat
  fadeIn : Nat
  fadeOut : Nat
  policy : LossPolicy
deriving DecidableEq, Repr

/-- A stored action (R168). -/
inductive Action where
  | take (a : TakeAction)
  | release (name : Nat) (fade : Option Nat)
  | releaseSource
  | pause (name : Nat)
  | resume (name : Nat)
  | forceSet (x : Selector) (m : ForceMode) (v : LevelSpec)
  | forceClear (x : Selector)
  | freeze (g : Nat)
  | thaw (g : Nat)
  | masterSet (m target fade : Nat)
  | platePlay (p : Nat)
  | plateStop (p : Nat)
deriving DecidableEq, Repr

/-- An action record after RESET#, which R167 gives no contents: the first of the kinds with every field 0, UNIFORM and
HOLD (DESIGN CHOICE, log 1). Nothing reads one before a LOAD_CUE has written it. -/
def ActionRecord.por (_ : Nat) : Action :=
  .take { name := 0, selector := ⟨0, 0, 0, 0⟩, value := .level 0, priority := some 0, fadeIn := 0, fadeOut := 0,
          policy := .hold }

inductive ListState where
  | stopped | running | ended
deriving DecidableEq, Repr

inductive LateCause where
  | room | cap
deriving DecidableEq, Repr

/-- A last late record (R169, R180). -/
structure LateRecord where
  cue : Nat
  cause : LateCause
  frame : Word
deriving DecidableEq, Repr

/-- A list descriptor (R169). -/
structure CueList where
  state : ListState
  first : Option Nat
  tail : Option Nat
  head : Option Nat
  acting : Nat
  loop : Nat
  passes : Nat
  lastFire : Word
  goPending : Bool
  lastLate : Option LateRecord
deriving DecidableEq, Repr

/-- The POR column of R169: list A acts for AUTOMATION, list B for CONSOLE. -/
def CueList.por (l : Nat) : CueList :=
  { state := .stopped, first := none, tail := none, head := none, acting := if l = 0 then 1 else 2, loop := 0,
    passes := 0, lastFire := 0, goPending := false, lastLate := none }

/-! ### Command Link (R188, R190) -/

/-- The status codes of 11.4. -/
inductive Status where
  | ok | busy | badLength | unknownCommand | modifierClash | modifierInvalid | range | notPermitted | notFound
  | tableFull | poolFull | queueFull | quota | inUse | listEnded | notRunning | alreadyPending
deriving DecidableEq, Repr

/-- An event's pending flag and count (R190). -/
structure EventCell where
  pending : Bool
  count : Nat
deriving DecidableEq, Repr

def EventCell.por (_ : Nat) : EventCell := ⟨false, 0⟩

/-- The thirteen event kinds (R189), numbered by `EventKind.number`. -/
inductive EventKind where
  | refLocked | refLost | refGlitch | holdoverEnd | sourceLost | sourceBack | applyFail | cueLate | listEnd
  | plateEnd | plateFault | fetchLate | outputSlip
deriving DecidableEq, Repr

/-! ### The whole part -/

/-- Where the part stands between RESET# low and running (R193). -/
inductive Device where
  | resetLow | initialising | running
deriving DecidableEq, Repr

/-- A SOFT_CLEAR in progress (R194): none, waiting for the render complete that clears the records, or cleared. -/
inductive SoftClear where
  | none | waiting | cleared
deriving DecidableEq, Repr

/-- Where the work of the last frame start stands (R85, R96; log 4): none outstanding, entries being applied,
counts being taken, or its render pass in progress. -/
inductive FramePhase where
  | idle | applying | counting | rendering
deriving DecidableEq, Repr

/-- A cue evaluation in progress: the list being judged and how many of its cues have fired in it (R178, R181). -/
structure Evaluation where
  list : Nat
  fired : Nat
deriving DecidableEq, Repr

/-- Model's own (log 4): the work of the last frame start that the table's rows take one by one and that is still
outstanding. -/
structure Work where
  phase : FramePhase
  lossDue : List Nat
  fadesDue : List Nat
  mastersDue : List Nat
  platesDue : List Nat
  dissolvesDue : List Nat
  wakesDue : List Nat
  idleDue : List Nat
  evaluation : Option Evaluation
deriving DecidableEq, Repr

/-- Nothing outstanding. -/
def Work.none : Work :=
  { phase := .idle, lossDue := [], fadesDue := [], mastersDue := [], platesDue := [], dissolvesDue := [],
    wakesDue := [], idleDue := [], evaluation := Option.none }

end Sys2Proof.Machine
end

