-- ==== Sys2Proof/Machine/State.lean ====
section
/-! DEFINITION. The state of the KD4860: every record the blocks of 00_scope hold, as plain data, and the queue of
commands that wait. -/

namespace Sys2Proof.Machine

/-- Every piece of state the spec gives the part, block by block, in the order of INVENTORY.md. -/
structure State where
  /-- Commands and events that wait, first in, first out. -/
  pending : List Instr
  /-- Model's own: the timebase time of the latest timed event (log 6). -/
  now : Nat
  /-- RESET# low, initialising, or running (R193). -/
  device : Device
  /-- A SOFT_CLEAR in progress (R194). -/
  softClear : SoftClear
  /-- Model's own: outstanding work of the last frame start (log 4). -/
  work : Work
  timer : Timer
  points : Table Point
  occupancy : Table (Option Nat)
  groups : Table Group
  curves : Table (List Nat)
  results : Table Result
  /-- The number of the last completed render, or none (R36). -/
  renderFrame : Option Word
  sources : Table Source
  /-- The supervision interval (R45). -/
  interval : Nat
  slots : Table Slot
  /-- The Name Index, by owner × 4096 + name (R66). -/
  names : Table (Option Nat)
  /-- The Level Pool's words, by block × 16 + position (R57). -/
  pool : Table Nat
  poolFree : List Nat
  /-- The application sequence counter (R55). -/
  sequence : Word
  queue : List Entry
  /-- The arrival counter (R81). -/
  arrival : Word
  lastFailure : Option Failure
  forces : Table (Option Force)
  freezes : Table Nat
  masters : Table Master
  workLight : Nat
  /-- The WLT pin (R130). -/
  wltPin : Bool
  /-- The sample taken at the beginning of the latest render pass (R130). -/
  wltSample : Bool
  /-- The sample used by the last completed render (R132). -/
  wltRendered : Bool
  lines : Table Line
  inputs : Table Input
  tiles : Table Tile
  links : Table Link
  plates : Table Plate
  descriptors : Table Descriptor
  descriptorFree : List Nat
  /-- The fetch list of the running frame (R150). -/
  fetches : List Fetch
  /-- Model's own: how many packets have read the live inputs (log 12). -/
  draws : Nat
  cues : Table Cue
  actions : Table Action
  actionFree : List Nat
  lists : Table CueList
  /-- The reply buffer; empty is no reply (R185). -/
  reply : List Byte
  /-- The outgoing reply latched at the fall of CS# (R185). -/
  outgoing : List Byte
  /-- A transaction is in progress, CS# low (R185). -/
  transaction : Bool
  events : Table EventCell
  /-- The event mask, bit k the enable of event k (R192). -/
  mask : Half
deriving DecidableEq, Repr

/-- Reasons for a fault. No rule of the spec stops the part, so there is none: every step answers a next state. -/
inductive Fault where
deriving DecidableEq, Repr

/-- Reasons for a refusal. -/
inductive Refusal where
  /-- Raised by an arm of `exec` for a command that has no meaning in this model yet. Safe: the run stops where the
  hardware goes on. No arm raises it: every row is modelled. -/
  | notModelled (mnemonic : String)
deriving DecidableEq, Repr

/-- The part right after reset: the POR values, initialisation ended, BUSY low, frame 0 running from timebase time 0
(R1, R3, R193; log 1). -/
def State.reset : State :=
  { pending := [], now := 0, device := .running, softClear := .none, work := Work.none, timer := Timer.por,
    points := .empty, occupancy := .empty, groups := .empty, curves := .empty, results := .empty, renderFrame := none,
    sources := .empty, interval := 25, slots := .empty, names := .empty, pool := .empty,
    poolFree := List.range 1024, sequence := 0, queue := [], arrival := 0, lastFailure := none, forces := .empty,
    freezes := .empty, masters := .empty, workLight := 32768, wltPin := false, wltSample := false,
    wltRendered := false, lines := .empty, inputs := .empty, tiles := .empty, links := .empty, plates := .empty,
    descriptors := .empty, descriptorFree := List.range 1024, fetches := [], draws := 0, cues := .empty,
    actions := .empty, actionFree := List.range 2048, lists := .empty, reply := [], outgoing := [],
    transaction := false, events := .empty, mask := 0x1FFF }

end Sys2Proof.Machine
end

