-- ==== Sys2Proof/Machine/Ops.lean ====
section
/-! DEFINITION. The named operations every meaning is written over: reading and writing one record of a store, the
event set, selectors and what they cover, the Level Pool, the life of a contribution, and the Change Queue. -/

namespace Sys2Proof.Machine

/-! ### One record of each store -/

def State.point (s : State) (p : Nat) : Point := s.points.get Point.por p
def State.setPoint (s : State) (p : Nat) (v : Point) : State := { s with points := s.points.set Point.por p v }
def State.occupant (s : State) (k : Nat) : Option Nat := s.occupancy.get Occupancy.por k
def State.setOccupant (s : State) (k : Nat) (v : Option Nat) : State :=
  { s with occupancy := s.occupancy.set Occupancy.por k v }
def State.group (s : State) (g : Nat) : Group := s.groups.get Group.por g
def State.setGroup (s : State) (g : Nat) (v : Group) : State := { s with groups := s.groups.set Group.por g v }
def State.curve (s : State) (c : Nat) : List Nat := s.curves.get Curve.por c
def State.setCurve (s : State) (c : Nat) (v : List Nat) : State := { s with curves := s.curves.set Curve.por c v }
def State.result (s : State) (p : Nat) : Result := s.results.get Result.por p
def State.source (s : State) (n : Nat) : Source := s.sources.get Source.por n
def State.setSource (s : State) (n : Nat) (v : Source) : State := { s with sources := s.sources.set Source.por n v }
def State.slot (s : State) (k : Nat) : Slot := s.slots.get Slot.por k
def State.setSlot (s : State) (k : Nat) (v : Slot) : State := { s with slots := s.slots.set Slot.por k v }
def State.force (s : State) (p : Nat) : Option Force := s.forces.get Force.por p
def State.setForce (s : State) (p : Nat) (v : Option Force) : State :=
  { s with forces := s.forces.set Force.por p v }
def State.freezeCount (s : State) (g : Nat) : Nat := s.freezes.get Freeze.por g
def State.setFreezeCount (s : State) (g v : Nat) : State := { s with freezes := s.freezes.set Freeze.por g v }
def State.master (s : State) (m : Nat) : Master := s.masters.get Master.por m
def State.setMaster (s : State) (m : Nat) (v : Master) : State := { s with masters := s.masters.set Master.por m v }
def State.line (s : State) (l : Nat) : Line := s.lines.get Line.por l
def State.setLine (s : State) (l : Nat) (v : Line) : State := { s with lines := s.lines.set Line.por l v }
def State.input (s : State) (i : Nat) : Input := s.inputs.get Input.por i
def State.setInput (s : State) (i : Nat) (v : Input) : State := { s with inputs := s.inputs.set Input.por i v }
def State.tile (s : State) (t : Nat) : Tile := s.tiles.get Tile.por t
def State.setTile (s : State) (t : Nat) (v : Tile) : State := { s with tiles := s.tiles.set Tile.por t v }
def State.link (s : State) (l : Nat) : Link := s.links.get Link.por l
def State.setLink (s : State) (l : Nat) (v : Link) : State := { s with links := s.links.set Link.por l v }
def State.plate (s : State) (p : Nat) : Plate := s.plates.get Plate.por p
def State.setPlate (s : State) (p : Nat) (v : Plate) : State := { s with plates := s.plates.set Plate.por p v }
def State.descriptor (s : State) (d : Nat) : Descriptor := s.descriptors.get Descriptor.por d
def State.setDescriptor (s : State) (d : Nat) (v : Descriptor) : State :=
  { s with descriptors := s.descriptors.set Descriptor.por d v }
def State.cue (s : State) (c : Nat) : Cue := s.cues.get Cue.por c
def State.setCue (s : State) (c : Nat) (v : Cue) : State := { s with cues := s.cues.set Cue.por c v }
def State.action (s : State) (a : Nat) : Action := s.actions.get ActionRecord.por a
def State.setAction (s : State) (a : Nat) (v : Action) : State :=
  { s with actions := s.actions.set ActionRecord.por a v }
def State.list (s : State) (l : Nat) : CueList := s.lists.get CueList.por l
def State.setList (s : State) (l : Nat) (v : CueList) : State := { s with lists := s.lists.set CueList.por l v }
def State.event (s : State) (k : Nat) : EventCell := s.events.get EventCell.por k

/-- The Name Index under an owner and a name (R66). -/
def State.named (s : State) (owner name : Nat) : Option Nat := s.names.get Name.por (owner * 4096 + name)
def State.setNamed (s : State) (owner name : Nat) (v : Option Nat) : State :=
  { s with names := s.names.set Name.por (owner * 4096 + name) v }

/-- Replace the outstanding frame work. -/
def State.setWork (s : State) (w : Work) : State := { s with work := w }

/-- Replace the Frame Timer's record. -/
def State.setTimer (s : State) (t : Timer) : State := { s with timer := t }

/-! ### Events (R190) -/

/-- The event's number (R189). -/
def EventKind.number : EventKind → Nat
  | .refLocked => 0
  | .refLost => 1
  | .refGlitch => 2
  | .holdoverEnd => 3
  | .sourceLost => 4
  | .sourceBack => 5
  | .applyFail => 6
  | .cueLate => 7
  | .listEnd => 8
  | .plateEnd => 9
  | .plateFault => 10
  | .fetchLate => 11
  | .outputSlip => 12

/-- Raise an event: set its flag and raise its count, which stops at 255 (R190). -/
def State.raise (s : State) (k : EventKind) : State :=
  { s with events := s.events.set EventCell.por k.number ⟨true, saturate 255 (s.event k.number).count⟩ }

/-! ### Selectors (R32, R33) -/

/-- Whether a selector is valid against its group's present definition (R32). -/
def State.selectorValid (s : State) (x : Selector) : Bool :=
  x.group ≤ 127 && x.offset < (s.group x.group).stride && 1 ≤ x.count && x.count ≤ 512 &&
    x.first + x.count ≤ (s.group x.group).count

/-- The point a selector covers at element-order position i (R33). -/
def State.coveredPoint (s : State) (x : Selector) (i : Nat) : Nat :=
  (s.group x.group).base + (x.first + i) * (s.group x.group).stride + x.offset

/-- The points a selector covers, in element order (R33). -/
def State.coveredPoints (s : State) (x : Selector) : List Nat := (List.range x.count).map (s.coveredPoint x)

/-- The element-order position of point p in a selector, if the selector covers p (R33). -/
def State.positionOf (s : State) (x : Selector) (p : Nat) : Option Nat :=
  let i := (p - s.coveredPoint x 0) / (s.group x.group).stride
  if i < x.count ∧ s.coveredPoint x i = p then some i else none

/-- Whether a selector covers a point. -/
def State.covers (s : State) (x : Selector) (p : Nat) : Bool := (s.positionOf x p).isSome

/-- The level a level specification gives the covered point at position i, a FAN formed in full and then clamped
(R56, R120). -/
def LevelSpec.at : LevelSpec → Nat → Nat
  | .level v, _ => v
  | .fan b d, i => clampLevel ((b : Int) + i * d)

/-! ### The Level Pool (R57) -/

/-- Words a contribution over c points needs, and the blocks that hold them (R57). -/
def blocksNeeded (form : ValueForm) (c : Nat) : Nat :=
  ((match form with | .list => 2 * c | .spec _ => c) + 15) / 16

/-- Where word w of a chain lies: position w mod 16 of the chain's block w/16 (R57). -/
def chainAddress (chain : List Nat) (w : Nat) : Nat := (chain.getD (w / 16) 0) * 16 + w % 16

def State.word (s : State) (chain : List Nat) (w : Nat) : Nat := s.pool.get PoolWord.por (chainAddress chain w)

def State.setWord (s : State) (chain : List Nat) (w v : Nat) : State :=
  { s with pool := s.pool.set PoolWord.por (chainAddress chain w) v }

/-- Write consecutive words of a chain from word w on. -/
def State.setWords (s : State) (chain : List Nat) : Nat → List Nat → State
  | _, [] => s
  | w, v :: vs => (s.setWord chain w v).setWords chain (w + 1) vs

/-- The target of the covered point at position i (R56). -/
def State.target (s : State) (c : Contribution) (i : Nat) : Nat :=
  match c.form with
  | .spec v => v.at i
  | .list => s.word c.chain (c.selector.count + i)

/-- The effective level of a FADING_IN or HELD contribution at position i, whose point is p (R101). -/
def State.effectiveLevel (s : State) (c : Contribution) (i p : Nat) : Nat :=
  if c.phase = .fadingIn ∧ (s.point p).fields.kind ≠ .source then
    mixLevel (s.word c.chain i) (s.target c i) c.elapsed c.fadeIn
  else s.target c i

/-! ### Contributions -/

/-- The record a handle matches (R54): the slot is not FREE and its generation is the handle's. -/
def State.matching (s : State) (h : Handle) : Option Contribution :=
  if h.slot < 192 ∧ (s.slot h.slot).gen = h.gen then (s.slot h.slot).record else none

/-- Write the record of a slot that is not FREE. -/
def State.setRecord (s : State) (k : Nat) (c : Contribution) : State := s.setSlot k ⟨(s.slot k).gen, some c⟩

/-- The lowest-numbered FREE slot (R61). -/
def State.freeSlot (s : State) : Option Nat := (List.range 192).find? fun k => (s.slot k).record.isNone

/-- The slots that are not FREE and hold a record of a kind, in slot order. -/
def State.slotsWhere (s : State) (f : Contribution → Bool) : List Nat :=
  (List.range 192).filter fun k => (s.slot k).record.any f

/-- Change a source's live count. -/
def State.addLive (s : State) (n : Nat) : State := s.setSource n { s.source n with live := (s.source n).live + 1 }
def State.subLive (s : State) (n : Nat) : State := s.setSource n { s.source n with live := (s.source n).live - 1 }

/-- Return a slot to FREE (R75): the generation rises, the chain's blocks join the back of the free list, the owner's
live count falls, and a FADING_IN or HELD record leaves the Name Index. -/
def State.free (s : State) (k : Nat) : State :=
  match (s.slot k).record with
  | none => s
  | some c =>
    let s := if c.name ≠ 0 ∧ (c.phase = .fadingIn ∨ c.phase = .held) then s.setNamed c.owner c.name none else s
    let s := { s with poolFree := s.poolFree ++ c.chain }
    let s := s.subLive c.owner
    s.setSlot k ⟨((s.slot k).gen + 1) % 256, none⟩

/-- The release levels of a record in element order (R67): its effective levels of the last render, or the level words
as they stand for a record applied at this frame start, which had no level there. -/
def State.releaseLevels (s : State) (c : Contribution) : List Nat :=
  (List.range c.selector.count).map fun i =>
    if c.fresh then s.word c.chain i else s.effectiveLevel c i (s.coveredPoint c.selector i)

/-- Release the FADING_IN or HELD record of a slot with fade length L (R67): release levels, out of the Name Index and
anonymous, then FREE at once with L of 0, otherwise FADING_OUT with fade-out length (R53) and remaining L and not paused.
The elapsed value is not kept: 0 stands in its place, which nothing reads in FADING_OUT. The fade-out its TAKE stored is
left as it was (R187; log 30). -/
def State.release (s : State) (k L : Nat) : State :=
  match (s.slot k).record with
  | none => s
  | some c =>
    let s' := s.setWords c.chain 0 (s.releaseLevels c)
    let s' := if c.name ≠ 0 then s'.setNamed c.owner c.name none else s'
    let c' := { c with name := 0, phase := .fadingOut, fadeOut := L, elapsed := 0, remaining := L, paused := false,
                       fresh := true }
    if L = 0 then (s'.setRecord k { c with name := 0 }).free k else s'.setRecord k c'

/-- The contribution an address finds for a source (R68): by handle any record not FREE, the source's own unless the
source is SAFETY; by name a FADING_IN or HELD record of the source. -/
def State.find (s : State) (source : Nat) : Address → Option (Nat × Contribution)
  | .handle h => match s.matching h with
    | some c => if source = 0 ∨ c.owner = source then some (h.slot, c) else none
    | none => none
  | .name n => match s.named source n with
    | some k => (s.slot k).record.map fun c => (k, c)
    | none => none

/-! ### Change Queue -/

/-- Free entries of the queue (R88). -/
def State.queueRoom (s : State) : Nat := 64 - s.queue.length

/-- Place an entry at the back with the arrival counter's value, which then rises by one (R81). -/
def State.enqueue (s : State) (source : Nat) (origin : Origin) (effective : Word) (body : EntryBody) : State :=
  { s with
    queue := s.queue ++ [{ source, origin, arrival := s.arrival, effective, body, due := false }],
    arrival := s.arrival + 1 }

/-- The kind of an entry's body. -/
def EntryBody.kind : EntryBody → EntryKind
  | .take _ => .take
  | .release _ _ => .release
  | .releaseSource _ _ => .releaseSource
  | .pause _ => .pause
  | .resume _ => .resume
  | .setPoint _ _ => .setPoint
  | .bindPoint _ _ => .bindPoint
  | .loadCurve _ _ => .loadCurve
  | .forceSet _ _ _ => .forceSet
  | .forceClear _ => .forceClear
  | .freeze _ => .freeze
  | .thaw _ => .thaw
  | .masterSet _ _ _ => .masterSet
  | .setWorklightLevel _ => .setWorklightLevel
  | .platePlay _ => .platePlay
  | .plateStop _ => .plateStop
  | .setTile _ _ => .setTile

/-- Count a drop (R44, R90): APPLY_FAIL, the source's apply-fail count, the last failure record. -/
def State.recordFailure (s : State) (f : Failure) : State :=
  let s := s.raise .applyFail
  let s := s.setSource f.source
    { s.source f.source with applyFails := saturate 65535 (s.source f.source).applyFails }
  { s with lastFailure := some f }

/-- The drop of an entry at its turn (R90), the frame start being the running frame. -/
def State.drop (s : State) (e : Entry) (r : FailReason) : State :=
  s.recordFailure
    { arrival := some e.arrival, kind := e.body.kind, source := e.source, origin := e.origin,
      effective := e.effective, frame := s.timer.counter, reason := r }

/-- Whether an entry is the TAKE entry of a handle (R89). -/
def Entry.isTakeOf (e : Entry) (h : Handle) : Bool := e.body == .take h

/-- The TAKE entry of a handle leaves the queue (R70, R87). -/
def State.withdrawTake (s : State) (h : Handle) : State := { s with queue := s.queue.filter fun e => !e.isTakeOf h }

/-- Take the first due entry out of a queue, the others keeping their order (R85). -/
def takeFirstDue : List Entry → Option (Entry × List Entry)
  | [] => none
  | e :: rest =>
    if e.due then some (e, rest)
    else (takeFirstDue rest).map fun r => (r.1, e :: r.2)

/-- The handle a slot's occupant has. -/
def State.handleOf (s : State) (k : Nat) : Handle := ⟨k, (s.slot k).gen⟩

/-- The reservation of a TAKE (R61, R62): the lowest FREE slot enters PENDING, its chain is taken from the front of the
free list, a LIST's targets are written, the live count rises, and the TAKE entry joins the queue. The caller has
checked that the slot, the blocks and the queue entry are there. -/
def State.reserve (s : State) (k : Nat) (c : Contribution) (targets : List Nat) : State :=
  let n := blocksNeeded c.form c.selector.count
  let c := { c with chain := s.poolFree.take n }
  let s := { s with poolFree := s.poolFree.drop n }
  let s := s.setRecord k c
  let s := s.setWords c.chain c.selector.count targets
  let s := s.addLive c.owner
  s.enqueue c.owner c.origin c.effective (.take (s.handleOf k))

/-- Why a TAKE of a source cannot be reserved at this moment (R60, steps 6 to 8). -/
def State.reserveProblem (s : State) (owner : Nat) (form : ValueForm) (count : Nat) : Option FailReason :=
  if (s.source owner).live = (s.source owner).quota then some .quota
  else if s.freeSlot.isNone then some .tableFull
  else if s.poolFree.length < blocksNeeded form count then some .poolFull
  else none

/-- Whether some covered point of kind SOURCE would be given a level above 12 (R60 step 3, R120 step 4). -/
def State.sourceOutOfRange (s : State) (x : Selector) (level : Nat → Nat) : Bool :=
  (List.range x.count).any fun i =>
    (s.point (s.coveredPoint x i)).fields.kind == .source && level i > 12

/-! ### Frames of items -/

/-- Fold a state update over a list of numbers, in order. -/
def State.each (s : State) (f : State → Nat → State) : List Nat → State
  | [] => s
  | k :: ks => (f s k).each f ks

end Sys2Proof.Machine
end

