-- ==== Sys2Proof/Machine/Operands.lean ====
section
/-! DEFINITION. Every operand form of a command: the codes of 11.8 and R188 read into the records' values (none is a
code the command refuses RANGE), the modifiers and their checks, and the effective frame. -/

namespace Sys2Proof

open Sys2Proof.Machine

/-- The commanding source of a frame. -/
def Header.src (h : Header) : Nat := h.source.toNat

/-- SAFETY or AUTOMATION: the sources the configuration commands are accepted from. -/
def Header.configures (h : Header) : Bool := h.source.toNat ≤ 1

/-- A two's complement 16-bit number. -/
def signed16 (x : Half) : Int := x.toInt

/-- The value of the entry of a code, if the frame has one. -/
def Header.mod? (h : Header) (code : Byte) : Option Word := (h.mods.find? fun m => m.code == code).map (·.value)

/-- A FADE modifier's value when in range: `none` is RANGE, `some none` is no FADE modifier (R187). -/
def Header.fade? (h : Header) : Option (Option Nat) :=
  match h.mod? 4 with
  | none => some none
  | some v => if v.toNat ≤ 65535 then some (some v.toNat) else none

/-- A FAN modifier's base and step: bytes 1–2 and 3–4 of the entry (11.8). -/
def Header.fan? (h : Header) : Option LevelSpec :=
  (h.mod? 5).map fun v => .fan (v.toNat / 65536) (signed16 (v.setWidth 16))

end Sys2Proof

namespace Sys2Proof.Machine

/-- A mark, option or on/off field: 0 or 1 (R188). -/
def onOff (b : Byte) : Option Bool := if b = 0 then some false else if b = 1 then some true else none

def kindOf (b : Byte) : Option Kind :=
  if b = 0 then some .intensity else if b = 1 then some .colour else if b = 2 then some .control
  else if b = 3 then some .source else none

def paramOf (b : Byte) : Option Param :=
  if b = 0 then some .gain else if b = 1 then some .red else if b = 2 then some .green
  else if b = 3 then some .blue else if b = 4 then some .source else none

/-- A master field: 255 is none, 0..3 a master, anything else no master at all (R23). -/
def masterOf (b : Byte) : Option (Option Nat) :=
  if b = 255 then some none else if b.toNat ≤ 3 then some (some b.toNat) else none

def policyOf (b : Byte) : Option LossPolicy := if b = 0 then some .hold else if b = 1 then some .release else none

/-- A force-mode code, numbered from 0 with NONE as R118's table lists the modes (log 9). -/
def forceModeOf (b : Byte) : Option ForceMode :=
  if b = 1 then some .park else if b = 2 then some .cap else if b = 3 then some .floor else none

def endModeOf (b : Byte) : Option EndMode :=
  if b = 0 then some .loop else if b = 1 then some .holdLast else if b = 2 then some .black else none

/-- A list code: 0 for A, 1 for B. -/
def listOf (b : Byte) : Option Nat := if b = 0 then some 0 else if b = 1 then some 1 else none

def selectorOf (x : SelectorField) : Selector := ⟨x.group.toNat, x.first.toNat, x.count.toNat, x.offset.toNat⟩

def levelSpecOf : LevelField → Option LevelSpec
  | .level v => some (.level v.toNat)
  | .fan b d => some (.fan b.toNat (signed16 d))
  | .unknown _ => none

/-- The range checks of a binding (R25). -/
def bindingOf : BindingField → Option Binding
  | .unbound => some .unbound
  | .lamp l s w =>
    if l.toNat ≤ 7 ∧ s.toNat ≤ 383 ∧ (w = 1 ∨ (w = 2 ∧ s.toNat ≠ 383)) then some (.lamp l.toNat s.toNat w.toNat)
    else none
  | .tile t p => if t.toNat ≤ 63 then (paramOf p).map (.tile t.toNat) else none
  | .unknown _ => none

/-- The arrival check of an address (R68): slot 0..191, name 1..4095. -/
def addressOf : AddressField → Option Address
  | .handle s g => if s.toNat ≤ 191 then some (.handle ⟨s.toNat, g.toNat⟩) else none
  | .name n => if 1 ≤ n.toNat ∧ n.toNat ≤ 4095 then some (.name n.toNat) else none
  | .unknown _ => none

def triggerOf : TriggerField → Option Trigger
  | .go => some .go
  | .atFrame f => some (.atFrame f)
  | .follow d => some (.follow d.toNat)
  | .unknown _ => none

/-- The handle an address names, if it names one. -/
def Address.handle? : Address → Option Handle
  | .handle h => some h
  | .name _ => none

/-! ### Modifiers (11.3, R187) -/

/-- The class of a modifier code: AT and DELAY are both TIME (11.3). -/
def modifierClass (code : Byte) : Nat :=
  if code = 1 then 1 else if code = 2 ∨ code = 3 then 2 else if code = 4 then 3 else 4

/-- Whether two entries are of one class (R187, check 3). -/
def modifiersClash : List Modifier → Bool
  | [] => false
  | m :: rest => rest.any (fun r => modifierClass r.code == modifierClass m.code) || modifiersClash rest

/-- The modifier checks of R187 for a command code. -/
def modifierProblem (code : Byte) (mods : List Modifier) : Option Status :=
  if mods.any fun m => !(allowedModifiers code).contains m.code then some .modifierInvalid
  else if modifiersClash mods then some .modifierClash
  else none

/-- The effective frame of a command taken in frame n, with the CLAMPED mark of a past AT (R82); none is RANGE
(R83). -/
def effectiveFrame (n : Word) (h : Header) : Option (Word × Bool) :=
  match h.mod? 2, h.mod? 3 with
  | some f, _ =>
    if signedDiff f (n + 1) > 65535 then none
    else if signedDiff f (n + 1) < 0 then some (n + 1, true)
    else some (f, false)
  | none, some d => if d.toNat > 65535 then none else some (n + 1 + d, false)
  | none, none => some (n + 1, false)

/-- The priority a PRIO value or its absence gives under a source's limits, with the CLAMPED mark (R39); none is
RANGE. -/
def priorityOf (src : Source) : Option Word → Option (Nat × Bool)
  | none => some (src.priority, false)
  | some v =>
    if v.toNat > 15 then none
    else if v.toNat > src.ceiling then some (src.ceiling, true)
    else some (v.toNat, false)

/-! ### Kinds and bindings (R20) -/

/-- Whether a kind is allowed for a binding (R20). -/
def Binding.allows : Binding → Kind → Bool
  | .unbound, _ => true
  | .lamp _ _ _, k => k != .source
  | .tile _ .gain, k => k == .intensity
  | .tile _ .red, k => k == .colour
  | .tile _ .green, k => k == .colour
  | .tile _ .blue, k => k == .colour
  | .tile _ .source, k => k == .source

def Param.number : Param → Nat
  | .gain => 0
  | .red => 1
  | .green => 2
  | .blue => 3
  | .source => 4

/-- The occupancy entry of a lamp slot (R21). -/
def lampOutput (line slot : Nat) : Nat := line * 384 + slot

/-- The occupancy entry of a tile parameter, behind the 3,072 lamp slots (R21). -/
def tileOutput (tile : Nat) (p : Param) : Nat := 3072 + tile * 5 + p.number

/-- The outputs a binding covers (R21). -/
def Binding.outputs : Binding → List Nat
  | .unbound => []
  | .lamp l s w => if w = 2 then [lampOutput l s, lampOutput l (s + 1)] else [lampOutput l s]
  | .tile t p => [tileOutput t p]

/-! ### SET_POINT (R23) -/

/-- The calibration offset after the clamp of check 4. -/
def clampOffset (x : Int) : Int := if x < -4096 then -4096 else if x > 4095 then 4095 else x

/-- Checks 1 to 4 of R23 on a body: the fields an entry carries, or none for RANGE. -/
def pointFieldsOf (b : SetPointBody) : Option PointFields :=
  match kindOf b.kind, masterOf b.master, onOff b.member with
  | some k, some m, some w =>
    if b.point.toNat > 2559 ∨ b.curve.toNat > 7 then none
    else if m ≠ none ∧ k ≠ .intensity then none
    else if k = .source ∧ (b.home.toNat > 12 ∨ b.curve ≠ 0 ∨ m ≠ none ∨ b.offset ≠ 0 ∨ w = true) then none
    else some { kind := k, home := b.home.toNat, curve := b.curve.toNat, master := m,
                offset := clampOffset (signed16 b.offset), member := w }
  | _, _, _ => none

/-- The fields SET_TILE carries, in range (R155). -/
def tileFieldsOf (b : SetTileBody) : Option TileFields :=
  match onOff b.enabled with
  | some e =>
    if b.tile.toNat > 63 ∨ b.link.toNat > 3 ∨ b.place.toNat > 15 ∨ b.cropX.toNat > 3712 ∨ b.cropY.toNat > 2032 then none
    else some { enabled := e, link := b.link.toNat, place := b.place.toNat, cropX := b.cropX.toNat,
                cropY := b.cropY.toNat, dissolve := b.dissolve.toNat }
  | none => none

end Sys2Proof.Machine
end

