-- ==== Sys2Proof/Machine/Flags.lean ====
section
/-! DEFINITION. Every mark and status line the part computes from its state: BUSY and ATTN#, the in-use mark of a
group, a shadowed tile, a point's frozen state, the due test of an entry and of a supervision tick. -/

namespace Sys2Proof.Machine

/-- BUSY (R189): while RESET# is low, during initialisation, and while a SOFT_CLEAR is in progress. -/
def State.busy (s : State) : Bool := s.device != .running || s.softClear != .none

/-- ATTN# low (R190): some kind is pending and enabled; high while RESET# is low (R193). -/
def State.attention (s : State) : Bool :=
  s.device != .resetLow && (List.range 13).any fun k => (s.event k).pending && s.mask.getLsbD k

/-- An action's selector, or the group a FREEZE or THAW action names. -/
def Action.group? : Action → Option Nat
  | .take a => some a.selector.group
  | .forceSet x _ _ => some x.group
  | .forceClear x => some x.group
  | .freeze g => some g
  | .thaw g => some g
  | .release _ _ | .releaseSource | .pause _ | .resume _ | .masterSet _ _ _ | .platePlay _ | .plateStop _ => none

/-- The group a waiting entry holds in use: FORCE_SET, FORCE_CLEAR, FREEZE and THAW entries (R31). A TAKE entry holds
its group through its PENDING contribution. -/
def EntryBody.group? : EntryBody → Option Nat
  | .forceSet x _ _ => some x.group
  | .forceClear x => some x.group
  | .freeze g => some g
  | .thaw g => some g
  | .take _ | .release _ _ | .releaseSource _ _ | .pause _ | .resume _ | .setPoint _ _ | .bindPoint _ _
  | .loadCurve _ _ | .masterSet _ _ _ | .setWorklightLevel _ | .platePlay _ | .plateStop _ | .setTile _ _ => none

/-- Whether a cue that is not EMPTY holds an action on a group (R31, R171). -/
def State.cueHolds (s : State) (c : Cue) (g : Nat) : Bool :=
  c.state != .empty && c.chain.any fun a => (s.action a).group? == some g

/-- A group is in use (R31). -/
def State.groupInUse (s : State) (g : Nat) : Bool :=
  !(s.slotsWhere fun c => c.selector.group == g).isEmpty ||
    s.queue.any (fun e => e.body.group? == some g) ||
    s.cues.entries.any (fun e => s.cueHolds e.2 g) ||
    s.freezeCount g != 0

/-- Whether a group spans a point (R30); an undefined group spans none. -/
def Group.spans (g : Group) (p : Nat) : Bool := g.base ≤ p && p < g.base + g.count * g.stride

/-- A point is held by a freeze (R113): some group that spans it has a count above 0. -/
def State.frozenNow (s : State) (p : Nat) : Bool :=
  s.freezes.entries.any fun e => e.2 > 0 && (s.group e.1).spans p

/-- A tile is shadowed (R155): enabled, on a link and place that a lower-numbered enabled tile also holds. -/
def State.shadowed (s : State) (t : Nat) : Bool :=
  (s.tile t).fields.enabled && (List.range t).any fun u =>
    (s.tile u).fields.enabled && (s.tile u).fields.link == (s.tile t).fields.link &&
      (s.tile u).fields.place == (s.tile t).fields.place

/-- An enabled tile that holds its place (R155). -/
def State.holdsPlace (s : State) (t : Nat) : Bool := (s.tile t).fields.enabled && !s.shadowed t

/-- The tile that holds a place of a link, if an enabled one does (R155): the lowest-numbered. -/
def State.tileAt (s : State) (link place : Nat) : Option Nat :=
  (List.range 64).find? fun t =>
    (s.tile t).fields.enabled && (s.tile t).fields.link == link && (s.tile t).fields.place == place

/-- An entry is due at frame start m (R84). -/
def Entry.isDueAt (e : Entry) (m : Word) : Bool := 0 ≤ signedDiff m e.effective

/-- A supervision tick occurs at frame start n (R45): n, read as signed, is a multiple of the interval. -/
def tickAt (interval : Nat) (n : Word) : Bool := n.toInt % (interval : Int) == 0

/-- The plate a tile source value selects: 5..12 are plates 0..7 (R144). -/
def plateOf (source : Nat) : Option Nat := if 5 ≤ source ∧ source ≤ 12 then some (source - 5) else none

/-- Whether a plate is the current or from source of some tile (R146, check 7). -/
def State.plateShown (s : State) (p : Nat) : Bool :=
  (List.range 64).any fun t => (s.tile t).current == p + 5 || (s.tile t).fromSource == some (p + 5)

/-- A plate whose picture is fetched (R144): STOPPED, PLAYING, or ENDED with end mode HOLD_LAST. -/
def Plate.fetched (p : Plate) : Bool :=
  p.state == .stopped || p.state == .playing || (p.state == .ended && p.endMode == .holdLast)

/-- A cue that stands in a list. -/
def Cue.inList (c : Cue) : Bool := c.state == .armed || c.state == .fired

/-- FORCE_SET, FORCE_CLEAR and MASTER_SET actions need may-force (R43). -/
def Action.needsForce : Action → Bool
  | .forceSet _ _ _ | .forceClear _ | .masterSet _ _ _ => true
  | .take _ | .release _ _ | .releaseSource | .pause _ | .resume _ | .freeze _ | .thaw _ | .platePlay _
  | .plateStop _ => false

end Sys2Proof.Machine
end

