-- ==== Sys2Proof/Machine/Reply.lean ====
section
/-! DEFINITION. Replies (11.4): the encoding of R188, the codes, and the verdict a command's own checks give. Field
lists the spec leaves to "the record" follow the order its chapter lists the fields (log 9, log 10). -/

namespace Sys2Proof.Machine

/-- A one-byte number. -/
def u8 (n : Nat) : List Byte := [BitVec.ofNat 8 n]

/-- A two-byte number. -/
def u16 (n : Nat) : List Byte := be16 (BitVec.ofNat 16 n)

/-- A four-byte number. -/
def u32 (n : Nat) : List Byte := be32 (BitVec.ofNat 32 n)

/-- A signed number in two's complement, two bytes. -/
def i16 (x : Int) : List Byte := be16 (BitVec.ofInt 16 x)

/-- A mark: 0 or 1. -/
def mark (b : Bool) : List Byte := [if b then 1 else 0]

/-- A one-byte number or none, all ones when none. -/
def opt8 (o : Option Nat) : List Byte := u8 (o.getD 255)

/-- A two-byte number or none, all ones when none. -/
def opt16 (o : Option Nat) : List Byte := u16 (o.getD 65535)

/-- A four-byte number or none, all ones when none. -/
def opt32 (o : Option Nat) : List Byte := u32 (o.getD 4294967295)

/-- A one-byte number or none whose range takes the all-ones value: a presence byte first (R188). -/
def present8 (o : Option Nat) : List Byte := mark o.isSome ++ opt8 o

/-- A two-byte number or none whose range takes the all-ones value: a presence byte first (R188). -/
def present16 (o : Option Nat) : List Byte := mark o.isSome ++ opt16 o

/-- A four-byte number or none whose range takes the all-ones value: a presence byte first (R188). -/
def present32 (o : Option Word) : List Byte := mark o.isSome ++ opt32 (o.map BitVec.toNat)

/-- A handle, or slot 255 and generation 255 where there is none (R188). -/
def handleBytes (o : Option Handle) : List Byte := opt8 (o.map Handle.slot) ++ opt8 (o.map Handle.gen)

def Status.code : Status → Byte
  | .ok => 0x00
  | .busy => 0x01
  | .badLength => 0x02
  | .unknownCommand => 0x03
  | .modifierClash => 0x04
  | .modifierInvalid => 0x05
  | .range => 0x06
  | .notPermitted => 0x07
  | .notFound => 0x08
  | .tableFull => 0x09
  | .poolFull => 0x0A
  | .queueFull => 0x0B
  | .quota => 0x0C
  | .inUse => 0x0D
  | .listEnded => 0x0E
  | .notRunning => 0x0F
  | .alreadyPending => 0x10

def FailReason.code : FailReason → Nat
  | .notFound => 0x08
  | .tableFull => 0x09
  | .poolFull => 0x0A
  | .quota => 0x0C
  | .inUse => 0x0D
  | .lost => 0x20
  | .kindMismatch => 0x21
  | .bindConflict => 0x22
  | .forceOwner => 0x23
  | .freezeLimit => 0x24
  | .notFrozen => 0x25
  | .plateUndefined => 0x26

/-- The status a reservation problem refuses a TAKE with (R60). -/
def FailReason.status : FailReason → Status
  | .tableFull => .tableFull
  | .poolFull => .poolFull
  | .quota => .quota
  | .notFound => .notFound
  | _ => .inUse

/-! ### States, modes and kinds, numbered from 0 in the order their tables list them (R188) -/

def TimerState.code : TimerState → Nat
  | .freeRun => 0
  | .acquiring => 1
  | .locked => 2
  | .holdover => 3

def UnlockCause.code : UnlockCause → Nat
  | .none => 0
  | .loss => 1
  | .drift => 2
  | .command => 3

def Kind.code : Kind → Nat
  | .intensity => 0
  | .colour => 1
  | .control => 2
  | .source => 3

def ForceMode.code : ForceMode → Nat
  | .park => 1
  | .cap => 2
  | .floor => 3

def SourceState.code : SourceState → Nat
  | .live => 0
  | .lost => 1

def Phase.code : Phase → Nat
  | .pending => 1
  | .fadingIn => 2
  | .held => 3
  | .fadingOut => 4

def LossPolicy.code : LossPolicy → Nat
  | .hold => 0
  | .release => 1

def EntryKind.code : EntryKind → Nat
  | .take => 0
  | .release => 1
  | .releaseSource => 2
  | .pause => 3
  | .resume => 4
  | .setPoint => 5
  | .bindPoint => 6
  | .loadCurve => 7
  | .forceSet => 8
  | .forceClear => 9
  | .freeze => 10
  | .thaw => 11
  | .masterSet => 12
  | .setWorklightLevel => 13
  | .platePlay => 14
  | .plateStop => 15
  | .setTile => 16

def MasterState.code : MasterState → Nat
  | .steady => 0
  | .fading => 1

def PlateState.code : PlateState → Nat
  | .undefined => 0
  | .stopped => 1
  | .playing => 2
  | .ended => 3
  | .fault => 4

def EndMode.code : EndMode → Nat
  | .loop => 0
  | .holdLast => 1
  | .black => 2

def LinkState.code : LinkState → Nat
  | .standby => 0
  | .waking => 1
  | .active => 2

def CueState.code : CueState → Nat
  | .empty => 0
  | .loaded => 1
  | .armed => 2
  | .fired => 3

def ListState.code : ListState → Nat
  | .stopped => 0
  | .running => 1
  | .ended => 2

def LateCause.code : LateCause → Nat
  | .room => 0
  | .cap => 1

/-- An origin: the cue number, or all ones for COMMAND, to which no table gives a code (DESIGN CHOICE, log 10). -/
def Origin.bytes : Origin → List Byte
  | .command => u16 65535
  | .cue n => u16 n

def Selector.bytes (x : Selector) : List Byte := u8 x.group ++ u16 x.first ++ u16 x.count ++ u8 x.offset

/-- A value form in a reply: a code, 0 one level or 1 FAN, and the fields of that form alone (DESIGN CHOICE, log 10). -/
def LevelSpec.bytes : LevelSpec → List Byte
  | .level v => u8 0 ++ u16 v
  | .fan b d => u8 1 ++ u16 b ++ i16 d

/-- A binding: the code of its type and the fields of that type alone, 1, 5 or 3 bytes; the spec tabulates no layout
(DESIGN CHOICE, log 9 for BIND_POINT's body, log 10 for READ_POINT's reply). -/
def Binding.bytes : Binding → List Byte
  | .unbound => u8 0
  | .lamp l s w => u8 1 ++ u8 l ++ u16 s ++ u8 w
  | .tile t p => u8 2 ++ u8 t ++ u8 p.number

/-- The address a waiting RELEASE, PAUSE or RESUME carries (R94), as its command carries it (DESIGN CHOICE, log 10). -/
def Address.bytes : Address → List Byte
  | .handle h => u8 0 ++ u8 h.slot ++ u8 h.gen
  | .name n => u8 1 ++ u16 n

/-- A force as READ_POINT and READ_OVERRIDES report it: mode, value and owner (R36). With mode NONE the value and the
owner are sent as absent fields, not left out (DESIGN CHOICE, log 10). -/
def forceBytes : Option Force → List Byte
  | none => u8 0 ++ present16 none ++ opt8 none
  | some f => u8 f.mode.code ++ present16 (some f.value) ++ opt8 (some f.owner)

/-! ### Verdicts -/

/-- What a command's own checks give (R186, step 8): a refusal with its code, which changes no table, or an acceptance
with the state it leaves, the CLAMPED mark and the reply's fields. -/
inductive Verdict where
  | refuse (st : Status)
  | accept (s : State) (clamped : Bool) (fields : List Byte)

/-- The reply's bytes (11.8): marker, command code as received, status, flags, length, fields. -/
def replyBytes (code : Byte) (st : Status) (clamped : Bool) (fields : List Byte) : List Byte :=
  [0xA5, code, st.code, if clamped then 1 else 0] ++ u16 fields.length ++ fields

/-- The reply of a frame replaces the reply buffer (R185). -/
def State.replyWith (s : State) (code : Byte) (st : Status) (clamped : Bool) (fields : List Byte) : State :=
  { s with reply := replyBytes code st clamped fields }

/-- The fields of an accepted frame-applied command's reply (R188). -/
def queuedFields (effective arrival : Word) (h : Option Handle) (priority : Option Nat) : List Byte :=
  be32 effective ++ be32 arrival ++ handleBytes h ++ opt8 priority

/-- The last arrival check of a frame-applied command (R88) and its entry (R80, R81). -/
def queueCommand (s : State) (h : Header) (effective : Word) (clamped : Bool) (body : EntryBody)
    (handle : Option Handle) : Verdict :=
  if s.queueRoom = 0 then .refuse .queueFull
  else .accept (s.enqueue h.src .command effective body) clamped (queuedFields effective s.arrival handle none)

end Sys2Proof.Machine
end

