-- ==== Sys2Proof/Machine/QueueCommands.lean ====
section
/-! DEFINITION. FLUSH and READ_QUEUE (spec 5.6 and 5.7). -/

namespace Sys2Proof.Machine

/-- The handles of the TAKE entries among some entries. -/
def takeHandles (q : List Entry) : List Handle :=
  q.filterMap fun e => match e.body with
    | .take h => some h
    | .release _ _ | .releaseSource _ _ | .pause _ | .resume _ | .setPoint _ _ | .bindPoint _ _ | .loadCurve _ _
    | .forceSet _ _ _ | .forceClear _ | .freeze _ | .thaw _ | .masterSet _ _ _ | .setWorklightLevel _ | .platePlay _
    | .plateStop _ | .setTile _ _ => none

/-- Return the PENDING contributions of removed TAKE entries to FREE (R75, R93), in queue order (DEDUCED, log 14). -/
def State.freeHandles (s : State) (hs : List Handle) : State :=
  s.each State.free (hs.map Handle.slot)

/-- Whether FLUSH removes an entry (R93). -/
def Entry.flushed (target : Nat) (arrival : Option Word) (e : Entry) : Bool :=
  e.source == target && arrival.all fun a => e.arrival == a

/-- The effect of an accepted FLUSH (R93): the entries leave and the PENDING contributions of the TAKE entries among
them return to FREE. -/
def State.flush (s : State) (target : Nat) (arrival : Option Word) : State :=
  let gone := s.queue.filter (Entry.flushed target arrival)
  ({ s with queue := s.queue.filter fun e => !e.flushed target arrival }).freeHandles (takeHandles gone)

/-- FLUSH (R93). -/
def flushOwn (h : Header) (target : Byte) (arrival : Option Word) (s : State) : Verdict :=
  if h.src ≠ 0 ∧ target.toNat ≠ h.src then .refuse .notPermitted
  else if target.toNat > 4 then .refuse .range
  else
    let gone := s.queue.filter (Entry.flushed target.toNat arrival)
    if arrival.isSome ∧ gone = [] then .refuse .notFound
    else .accept (s.flush target.toNat arrival) false (u8 gone.length ++ u8 (takeHandles gone).length)

/-- The last failure record (R90), absent as a presence byte 0 and all ones (R188). -/
def failureBytes : Option Failure → List Byte
  | none => u8 0 ++ List.replicate 18 255
  | some f =>
    u8 1 ++ present32 f.arrival ++ u8 f.kind.code ++ u8 f.source ++ f.origin.bytes ++ be32 f.effective ++
      be32 f.frame ++ u8 f.reason.code

/-- What READ_QUEUE adds for a TAKE, RELEASE, PAUSE or RESUME entry (R94). -/
def EntryBody.bytes : EntryBody → List Byte
  | .take h => handleBytes (some h)
  | .release a _ => a.bytes
  | .pause a => a.bytes
  | .resume a => a.bytes
  | .releaseSource _ _ | .setPoint _ _ | .bindPoint _ _ | .loadCurve _ _ | .forceSet _ _ _ | .forceClear _ | .freeze _
  | .thaw _ | .masterSet _ _ _ | .setWorklightLevel _ | .platePlay _ | .plateStop _ | .setTile _ _ => []

/-- An entry as READ_QUEUE reports it (R94). -/
def Entry.bytes (position : Nat) (e : Entry) : List Byte :=
  u8 position ++ be32 e.arrival ++ u8 e.body.kind.code ++ u8 e.source ++ e.origin.bytes ++ be32 e.effective ++ e.body.bytes

/-- The entries of a window that are present (R94). -/
def State.queueWindow (s : State) (first count : Nat) : List Byte :=
  (List.range count).flatMap fun j => ((s.queue[first + j]?).map (Entry.bytes (first + j))).getD []

/-- READ_QUEUE (R94). -/
def readQueueOwn (first count : Byte) (s : State) : Verdict :=
  if first.toNat > 63 ∨ count.toNat > 64 ∨ first.toNat + count.toNat > 64 then .refuse .range
  else .accept s false
    (u8 s.queue.length ++ u8 s.queueRoom ++ be32 s.arrival ++ be32 s.timer.counter ++ failureBytes s.lastFailure ++
      s.queueWindow first.toNat count.toNat)

end Sys2Proof.Machine
end

