-- ==== Sys2Proof/Machine/Contributions.lean ====
section
/-! DEFINITION. Contributions (spec chapter 4): TAKE, RELEASE, RELEASE_SOURCE, PAUSE and RESUME at arrival and at
application, fade counting, and READ_CONTRIBUTION. -/

namespace Sys2Proof.Machine

/-! ### TAKE -/

/-- The value form a TAKE asks for (R59): a FAN modifier replaces a UNIFORM target. -/
def takeForm (h : Header) (b : TakeBody) : ValueForm :=
  if b.form = 1 then .list
  else match h.fan? with
    | some v => .spec v
    | none => .spec (.level ((b.targets.headD 0).toNat))

/-- The target a TAKE gives position i before anything is reserved (R56). -/
def takeTarget (h : Header) (b : TakeBody) (i : Nat) : Nat :=
  match takeForm h b with
  | .list => ((b.targets.map BitVec.toNat).getD i 0)
  | .spec v => v.at i

/-- The record a reservation writes (R61, R62), its chain still to be taken. -/
def newContribution (owner name priority : Nat) (x : Selector) (form : ValueForm) (fadeIn fadeOut : Nat)
    (policy : LossPolicy) (origin : Origin) (effective : Word) : Contribution :=
  { phase := .pending, owner, name, priority, sequence := none, selector := x, form, fadeIn, fadeOut,
    storedFadeOut := fadeOut, elapsed := 0, remaining := 0, paused := false, policy, origin, effective, chain := [],
    fresh := false }

/-- TAKE at arrival (R60, R61). The FAN-on-LIST check of R59 is one of the modifier checks. -/
def takeArrival (h : Header) (b : TakeBody) (s : State) : Verdict :=
  let x := selectorOf b.selector
  match policyOf b.policy, priorityOf (s.source h.src) (h.mod? 1), h.fade?, effectiveFrame s.timer.counter h with
  | some policy, some (priority, c1), some fade, some (eff, c2) =>
    if !s.selectorValid x then .refuse .range
    else if b.name.toNat > 4095 ∨ b.form.toNat > 1 then .refuse .range
    else if s.sourceOutOfRange x (takeTarget h b) then .refuse .range
    else if s.queueRoom = 0 then .refuse .queueFull
    else match s.reserveProblem h.src (takeForm h b) x.count, s.freeSlot with
      | some r, _ => .refuse r.status
      | none, none => .refuse .tableFull
      | none, some k =>
        let c := newContribution h.src b.name.toNat priority x (takeForm h b) (fade.getD b.fadeIn.toNat) b.fadeOut.toNat
          policy .command eff
        .accept (s.reserve k c (if b.form = 1 then b.targets.map BitVec.toNat else [])) (c1 || c2)
          (queuedFields eff s.arrival (some (s.handleOf k)) (some priority))
  | _, _, _, _ => .refuse .range

/-- The start values of a TAKE applied at this frame start (R64, step 3): the merged levels of the last render. -/
def State.startValues (s : State) (c : Contribution) : List Nat :=
  (s.coveredPoints c.selector).map fun p => (s.result p).merged

/-- Succession (R65): the live holder of the owner's name is released with the successor's fade-in length. -/
def State.succeed (s : State) (owner name fadeIn : Nat) : State :=
  if name = 0 then s
  else match s.named owner name with
    | some k => s.release k fadeIn
    | none => s

/-- TAKE at application (R64). -/
def applyTake (s : State) (e : Entry) (h : Handle) : State :=
  match s.matching h with
  | none => s
  | some c =>
    if (s.source c.owner).state = .lost ∧ c.policy = .release then (s.drop e .lost).free h.slot
    else
      let seq := s.sequence + 1
      let c' := { c with sequence := some seq, phase := if c.fadeIn = 0 then .held else .fadingIn, elapsed := 0,
                         paused := false, fresh := true }
      let s := { s with sequence := seq }
      let s := s.setWords c.chain 0 (s.startValues c)
      let s := s.setRecord h.slot c'
      let s := s.succeed c.owner c.name c.fadeIn
      if c.name = 0 then s else s.setNamed c.owner c.name (some h.slot)

/-! ### RELEASE, RELEASE_SOURCE, PAUSE, RESUME -/

/-- RELEASE at arrival (R68, R69). -/
def releaseArrival (h : Header) (a : AddressField) (s : State) : Verdict :=
  match addressOf a, h.fade?, effectiveFrame s.timer.counter h with
  | some a, some fade, some (eff, clamped) => queueCommand s h eff clamped (.release a fade) a.handle?
  | _, _, _ => .refuse .range

/-- RELEASE at application (R70). -/
def applyRelease (s : State) (e : Entry) (a : Address) (fade : Option Nat) : State :=
  match s.find e.source a with
  | none => s.drop e .notFound
  | some (k, c) =>
    match c.phase with
    | .pending => (s.withdrawTake (s.handleOf k)).free k
    | .fadingIn => s.release k (fade.getD c.storedFadeOut)
    | .held => s.release k (fade.getD c.storedFadeOut)
    | .fadingOut => if fade = some 0 then s.free k else s

/-- RELEASE_SOURCE at arrival (R71). -/
def releaseSourceArrival (h : Header) (target : Byte) (s : State) : Verdict :=
  if target.toNat ≠ h.src ∧ h.src ≠ 0 then .refuse .notPermitted
  else if target.toNat > 4 then .refuse .range
  else match h.fade?, effectiveFrame s.timer.counter h with
    | some fade, some (eff, clamped) => queueCommand s h eff clamped (.releaseSource target.toNat fade) none
    | _, _ => .refuse .range

/-- RELEASE_SOURCE at application (R71), in slot order (log 14). -/
def applyReleaseSource (s : State) (target : Nat) (fade : Option Nat) : State :=
  s.each (fun t k => t.release k (fade.getD (((s.slot k).record.map Contribution.storedFadeOut).getD 0)))
    (s.slotsWhere fun c => c.owner == target && (c.phase == .fadingIn || c.phase == .held))

/-- PAUSE at arrival (R76). -/
def pauseArrival (h : Header) (a : AddressField) (s : State) : Verdict :=
  match addressOf a, effectiveFrame s.timer.counter h with
  | some a, some (eff, clamped) => queueCommand s h eff clamped (.pause a) a.handle?
  | _, _ => .refuse .range

/-- RESUME at arrival (R76). -/
def resumeArrival (h : Header) (a : AddressField) (s : State) : Verdict :=
  match addressOf a, effectiveFrame s.timer.counter h with
  | some a, some (eff, clamped) => queueCommand s h eff clamped (.resume a) a.handle?
  | _, _ => .refuse .range

/-- PAUSE and RESUME at application (R76): the paused flag of a fading contribution. -/
def applyPaused (s : State) (e : Entry) (a : Address) (paused : Bool) : State :=
  match s.find e.source a with
  | none => s.drop e .notFound
  | some (k, c) =>
    if c.phase = .fadingIn ∨ c.phase = .fadingOut then s.setRecord k { c with paused := paused } else s.drop e .inUse

/-! ### Fade counting (R72) -/

/-- Whether fade counting counts a record: fading, in the same state at the last render, not paused. -/
def Contribution.counted (c : Contribution) : Bool :=
  (c.phase == .fadingIn || c.phase == .fadingOut) && !c.fresh && !c.paused

/-- The fade count of one slot (R72). A count that ends its fade is left to FADE_IN_COMPLETE or FADE_OUT_COMPLETE
(log 4). -/
def State.countFade (s : State) (k : Nat) : State :=
  match (s.slot k).record with
  | none => s
  | some c =>
    if !c.counted then (if c.fresh then s.setRecord k { c with fresh := false } else s)
    else if c.phase = .fadingIn ∧ c.elapsed + 1 < c.fadeIn then s.setRecord k { c with elapsed := c.elapsed + 1 }
    else if c.phase = .fadingOut ∧ 1 < c.remaining then s.setRecord k { c with remaining := c.remaining - 1 }
    else { s with work := { s.work with fadesDue := s.work.fadesDue ++ [k] } }

/-- The fade-in of a due slot ends (R72): HELD, keeping its Name Index entry. -/
def State.completeFadeIn (s : State) (k : Nat) : State :=
  match (s.slot k).record with
  | some c => if c.phase = .fadingIn then s.setRecord k { c with phase := .held, elapsed := c.fadeIn } else s
  | none => s

/-- The fade-out of a due slot ends (R72, R75): FREE. -/
def State.completeFadeOut (s : State) (k : Nat) : State :=
  match (s.slot k).record with
  | some c => if c.phase = .fadingOut then s.free k else s
  | none => s

/-- A due slot's fade, whichever it is. -/
def State.completeFade (s : State) (k : Nat) : State := (s.completeFadeIn k).completeFadeOut k

/-! ### READ_CONTRIBUTION (R77, R78) -/

/-- The value form: 0 UNIFORM, 1 FAN, 2 LIST, and the values of that form alone, so LIST is its code (DESIGN CHOICE,
log 10). -/
def ValueForm.bytes : ValueForm → List Byte
  | .spec v => v.bytes
  | .list => u8 2

/-- The one field of R77's "elapsed or remaining": elapsed in FADING_IN, remaining in FADING_OUT, and sent as absent in
PENDING and HELD (DESIGN CHOICE, log 10). -/
def Contribution.progress (c : Contribution) : Option Nat :=
  match c.phase with
  | .fadingIn => some c.elapsed
  | .fadingOut => some c.remaining
  | .pending => none
  | .held => none

/-- A record as READ_CONTRIBUTION reports it (R77). Every field has its place in every state: elapsed or remaining is one
field, and the effective frame is sent as absent outside PENDING (DESIGN CHOICE, log 10). -/
def Contribution.bytes (c : Contribution) (h : Handle) : List Byte :=
  u8 c.phase.code ++ handleBytes (some h) ++ u8 c.owner ++ u16 c.name ++ u8 c.priority ++ present32 c.sequence ++
    c.selector.bytes ++ c.form.bytes ++ u16 c.fadeIn ++ u16 c.fadeOut ++ present16 c.progress ++ mark c.paused ++
    u8 c.policy.code ++ c.origin.bytes ++ present32 (if c.phase = .pending then some c.effective else none) ++
    u8 c.chain.length

/-- The word window (R78): point, level word (absent while PENDING) and target of each element. -/
def State.windowBytes (s : State) (c : Contribution) (w : Window) : List Byte :=
  (List.range w.count.toNat).flatMap fun j =>
    let i := w.first.toNat + j
    u16 (s.coveredPoint c.selector i) ++
      present16 (if c.phase = .pending then none else some (s.word c.chain i)) ++ u16 (s.target c i)

/-- The slot READ_CONTRIBUTION's address names (R77): the outer none is RANGE, the inner one NOT_FOUND. -/
def State.readAddress (s : State) : ReadAddressField → Option (Option Nat)
  | .handle k g =>
    if k.toNat > 191 then none
    else some (if (s.matching ⟨k.toNat, g.toNat⟩).isSome then some k.toNat else none)
  | .ownerName o n =>
    if o.toNat > 4 ∨ n.toNat < 1 ∨ n.toNat > 4095 then none else some (s.named o.toNat n.toNat)
  | .slot k => if k.toNat > 191 then none else some (some k.toNat)
  | .unknown _ => none

/-- What a reply by slot also carries (R77). -/
def State.slotTail (s : State) : ReadAddressField → List Byte
  | .slot _ => u16 s.poolFree.length ++ be32 s.sequence
  | _ => []

/-- Whether a window fits a selector (R78). -/
def windowFits (c : Contribution) (w : Window) : Bool :=
  1 ≤ w.count.toNat && w.count.toNat ≤ 256 && w.first.toNat + w.count.toNat ≤ c.selector.count

/-- READ_CONTRIBUTION (R77, R78). Of a FREE slot it carries the state, the handle (slot number and generation) and no
other field of the record (DESIGN CHOICE, log 10). A window on a FREE slot, or beside a handle or a name that finds
nothing, is NOT_FOUND whatever its first and count (DESIGN CHOICE, log 34). -/
def readContributionOwn (a : ReadAddressField) (w : Option Window) (s : State) : Verdict :=
  match s.readAddress a with
  | none => .refuse .range
  | some none => .refuse .notFound
  | some (some k) =>
    match (s.slot k).record, w with
    | none, some _ => .refuse .notFound
    | none, none => .accept s false (u8 0 ++ handleBytes (some (s.handleOf k)) ++ s.slotTail a)
    | some c, none => .accept s false (c.bytes (s.handleOf k) ++ s.slotTail a)
    | some c, some w =>
      if windowFits c w then .accept s false (c.bytes (s.handleOf k) ++ s.slotTail a ++ s.windowBytes c w)
      else .refuse .range

end Sys2Proof.Machine
end

