-- ==== Sys2Proof/Machine/Overrides.lean ====
section
/-! DEFINITION. Forces, freezes, masters and work light (spec chapter 7): arrival checks, applications, master counting
and READ_OVERRIDES. -/

namespace Sys2Proof.Machine

/-! ### Forces -/

/-- The value form of a FORCE_SET: the FAN modifier's base and step in place of the body's value (R120). -/
def forceValueOf (h : Header) (value : Half) : LevelSpec := (h.fan?).getD (.level value.toNat)

/-- Whether a force of a mode and value does not suit the points of kind SOURCE among a selector's (R120, checks 3 and
4; R121, test 2). -/
def State.forceUnsuits (s : State) (x : Selector) (m : ForceMode) (v : LevelSpec) : Bool :=
  (List.range x.count).any fun i =>
    (s.point (s.coveredPoint x i)).fields.kind == .source && (m != .park || v.at i > 12)

/-- FORCE_SET at arrival (R120). -/
def forceSetArrival (h : Header) (selector : SelectorField) (mode : Byte) (value : Half) (s : State) : Verdict :=
  let x := selectorOf selector
  if !(s.source h.src).mayForce then .refuse .notPermitted
  else match forceModeOf mode with
    | none => .refuse .range
    | some m =>
      if !s.selectorValid x then .refuse .range
      else if s.forceUnsuits x m (forceValueOf h value) then .refuse .range
      else match effectiveFrame s.timer.counter h with
        | none => .refuse .range
        | some (eff, clamped) => queueCommand s h eff clamped (.forceSet x m (forceValueOf h value)) none

/-- Some covered point holds a force of another owner, and the entry is not SAFETY's (R121, test 1). -/
def State.forceForeign (s : State) (source : Nat) (x : Selector) : Bool :=
  source != 0 && (s.coveredPoints x).any fun p => (s.force p).any fun f => f.owner != source

/-- FORCE_SET at application (R121). -/
def applyForceSet (s : State) (e : Entry) (x : Selector) (m : ForceMode) (v : LevelSpec) : State :=
  if s.forceForeign e.source x then s.drop e .forceOwner
  else if s.forceUnsuits x m v then s.drop e .kindMismatch
  else s.each (fun t i => t.setForce (s.coveredPoint x i) (some ⟨m, v.at i, e.source⟩)) (List.range x.count)

/-- FORCE_CLEAR at arrival (R122). -/
def forceClearArrival (h : Header) (selector : SelectorField) (s : State) : Verdict :=
  if !(s.source h.src).mayForce then .refuse .notPermitted
  else if !s.selectorValid (selectorOf selector) then .refuse .range
  else match effectiveFrame s.timer.counter h with
    | none => .refuse .range
    | some (eff, clamped) => queueCommand s h eff clamped (.forceClear (selectorOf selector)) none

/-- FORCE_CLEAR at application (R122). -/
def applyForceClear (s : State) (e : Entry) (x : Selector) : State :=
  if s.forceForeign e.source x then s.drop e .forceOwner
  else s.each (fun t i => t.setForce (s.coveredPoint x i) none) (List.range x.count)

/-! ### Freezes -/

/-- The range checks FREEZE and THAW share (R123): a group at most 127, defined. -/
def State.freezable (s : State) (g : Nat) : Bool := g ≤ 127 && (s.group g).count != 0

/-- FREEZE at arrival (R123). -/
def freezeArrival (h : Header) (group : Byte) (s : State) : Verdict :=
  if !s.freezable group.toNat then .refuse .range
  else match effectiveFrame s.timer.counter h with
    | none => .refuse .range
    | some (eff, clamped) => queueCommand s h eff clamped (.freeze group.toNat) none

/-- THAW at arrival (R123). -/
def thawArrival (h : Header) (group : Byte) (s : State) : Verdict :=
  if !s.freezable group.toNat then .refuse .range
  else match effectiveFrame s.timer.counter h with
    | none => .refuse .range
    | some (eff, clamped) => queueCommand s h eff clamped (.thaw group.toNat) none

/-- FREEZE at application (R124). -/
def applyFreeze (s : State) (e : Entry) (g : Nat) : State :=
  if s.freezeCount g ≥ 255 then s.drop e .freezeLimit else s.setFreezeCount g (s.freezeCount g + 1)

/-- THAW at application (R124). -/
def applyThaw (s : State) (e : Entry) (g : Nat) : State :=
  if s.freezeCount g = 0 then s.drop e .notFrozen else s.setFreezeCount g (s.freezeCount g - 1)

/-! ### Masters -/

/-- MASTER_SET at arrival (R127). -/
def masterSetArrival (h : Header) (master : Byte) (target fade : Half) (s : State) : Verdict :=
  if !(s.source h.src).mayForce then .refuse .notPermitted
  else if master.toNat > 3 then .refuse .range
  else match h.fade?, effectiveFrame s.timer.counter h with
    | some f, some (eff, clamped) =>
      queueCommand s h eff clamped (.masterSet master.toNat target.toNat (f.getD fade.toNat)) none
    | _, _ => .refuse .range

/-- MASTER_SET at application (R128). -/
def applyMasterSet (s : State) (m target fade : Nat) : State :=
  let level := (s.master m).level
  if fade = 0 then
    s.setMaster m { state := .steady, level := target, start := 0, target, length := 0, elapsed := 0, fresh := false }
  else
    s.setMaster m { state := .fading, level, start := level, target, length := fade, elapsed := 0, fresh := true }

/-- The count of one master (R129). A count that reaches the fade's end is left to MASTER_FADE_END (log 4). -/
def State.countMaster (s : State) (m : Nat) : State :=
  let x := s.master m
  if x.state = .steady then s
  else if x.fresh then s.setMaster m { x with fresh := false }
  else if x.elapsed + 1 < x.length then
    s.setMaster m { x with elapsed := x.elapsed + 1, level := mixLevel x.start x.target (x.elapsed + 1) x.length }
  else { s with work := { s.work with mastersDue := s.work.mastersDue ++ [m] } }

/-- The end of a master's fade (R129): the level becomes the target and the master is STEADY. -/
def State.completeMaster (s : State) (m : Nat) : State :=
  s.setMaster m { state := .steady, level := (s.master m).target, start := 0, target := (s.master m).target,
                  length := 0, elapsed := 0, fresh := false }

/-! ### Work light -/

/-- SET_WORKLIGHT_LEVEL at arrival (R131). -/
def setWorklightLevelArrival (h : Header) (level : Half) (s : State) : Verdict :=
  if !h.configures then .refuse .notPermitted
  else match effectiveFrame s.timer.counter h with
    | none => .refuse .range
    | some (eff, clamped) => queueCommand s h eff clamped (.setWorklightLevel level.toNat) none

/-- SET_WORKLIGHT_LEVEL at application (R131). -/
def applySetWorklightLevel (s : State) (v : Nat) : State := { s with workLight := v }

/-! ### READ_OVERRIDES (R132) -/

/-- A master as READ_OVERRIDES reports it: start, fade length and elapsed absent unless FADING (log 27). The elapsed of a
fade lies in 0..F − 1 (R126), which never takes the all-ones value, so it has no presence byte (R188). -/
def Master.bytes (x : Master) : List Byte :=
  let fading (v : Nat) : Option Nat := if x.state = .fading then some v else none
  u8 x.state.code ++ u16 x.level ++ u16 x.target ++ present16 (fading x.start) ++ present16 (fading x.length) ++
    opt16 (fading x.elapsed)

/-- A READ_OVERRIDES window in range. -/
def forceWindowFits (w : Window) : Bool :=
  w.first.toNat ≤ 2559 && 1 ≤ w.count.toNat && w.count.toNat ≤ 256 && w.first.toNat + w.count.toNat ≤ 2560

/-- The forces of a window's points, in point order. -/
def State.forceWindow (s : State) (w : Window) : List Byte :=
  (List.range w.count.toNat).flatMap fun j => forceBytes (s.force (w.first.toNat + j))

/-- READ_OVERRIDES (R132). The WLT level and sample are sent as marks, 1 when asserted (DESIGN CHOICE, log 10). -/
def readOverridesOwn (w : Option Window) (s : State) : Verdict :=
  if !(w.all forceWindowFits) then .refuse .range
  else .accept s false
    ((List.range 4).flatMap (fun m => (s.master m).bytes) ++ u16 s.workLight ++ mark s.wltPin ++ mark s.wltRendered ++
      u16 s.forces.entries.length ++ u8 s.freezes.entries.length ++ (w.map s.forceWindow).getD [])

end Sys2Proof.Machine
end

