-- ==== Sys2Proof/Machine/Cues.lean ====
section
/-! DEFINITION. Cue lists (spec chapter 10): editing, running, the evaluation of a frame start and firing, the reads. -/

namespace Sys2Proof.Machine

/-! ### Chains -/

/-- The cues of a chain from a cue on, at most `fuel` of them (R169). -/
def State.chainFrom (s : State) : Nat → Option Nat → List Nat
  | 0, _ => []
  | _ + 1, none => []
  | n + 1, some c => c :: s.chainFrom n (s.cue c).next

/-- The cues of a list, first to tail (R169). -/
def State.chain (s : State) (l : Nat) : List Nat := s.chainFrom 512 (s.list l).first

/-- The cue before another in a list. -/
def State.predecessor (s : State) (l c : Nat) : Option Nat := (s.chain l).find? fun x => (s.cue x).next == some c

/-- Every cue of a list ARMED with late mark off (R176, R182). -/
def State.armList (s : State) (l : Nat) : State :=
  s.each (fun t c => t.setCue c { t.cue c with state := .armed, late := false }) (s.chain l)

/-- The loop setting as passes, 255 reading as 0 (R169, R176). -/
def loopPasses (loop : Nat) : Nat := if loop = 255 then 0 else loop

/-- The sources the editing commands accept for a list (10.3). -/
def State.mayEdit (s : State) (h : Header) (l : Nat) : Bool := h.configures || h.src == (s.list l).acting

/-! ### Loading (R170, R171) -/

/-- A TAKE action's fields in range (R170, check 4). A priority byte of 255 is DEFAULT, which no table codes (DESIGN
CHOICE, log 9). -/
def State.takeActionOf (s : State) (b : TakeActionField) : Option Action :=
  match levelSpecOf b.value, policyOf b.policy with
  | some v, some policy =>
    let x := selectorOf b.selector
    if !s.selectorValid x ∨ b.name.toNat > 4095 ∨ (b.priority.toNat > 15 ∧ b.priority ≠ 255) then none
    else if s.sourceOutOfRange x v.at then none
    else some (.take { name := b.name.toNat, selector := x, value := v,
                       priority := if b.priority = 255 then none else some b.priority.toNat,
                       fadeIn := b.fadeIn.toNat, fadeOut := b.fadeOut.toNat, policy := policy })
  | _, _ => none

/-- A name that RELEASE, PAUSE and RESUME actions take (R168). -/
def actionName (n : Half) : Option Nat := if 1 ≤ n.toNat ∧ n.toNat ≤ 4095 then some n.toNat else none

/-- The form and range checks of an action (R170, check 4): the stored action, or none for RANGE. -/
def State.actionOf (s : State) : ActionField → Option Action
  | .take b => s.takeActionOf b
  | .release n f => (actionName n).map fun n => .release n (f.map BitVec.toNat)
  | .releaseSource => some .releaseSource
  | .pause n => (actionName n).map .pause
  | .resume n => (actionName n).map .resume
  | .forceSet x m v =>
    match forceModeOf m, levelSpecOf v with
    | some m, some v =>
      if !s.selectorValid (selectorOf x) then none
      else if s.forceUnsuits (selectorOf x) m v then none
      else some (.forceSet (selectorOf x) m v)
    | _, _ => none
  | .forceClear x => if s.selectorValid (selectorOf x) then some (.forceClear (selectorOf x)) else none
  | .freeze g => if s.freezable g.toNat then some (.freeze g.toNat) else none
  | .thaw g => if s.freezable g.toNat then some (.thaw g.toNat) else none
  | .masterSet m t f => if m.toNat ≤ 3 then some (.masterSet m.toNat t.toNat f.toNat) else none
  | .platePlay p => if p.toNat ≤ 7 then some (.platePlay p.toNat) else none
  | .plateStop p => if p.toNat ≤ 7 then some (.plateStop p.toNat) else none
  | .unknown _ => none

/-- Write a part's actions into the numbers taken for them. -/
def State.writeActions (s : State) : List Nat → List Action → State
  | n :: ns, a :: as => (s.setAction n a).writeActions ns as
  | _, _ => s

/-- The append of a part's actions to a chain, from the front of the free list (R171). -/
def State.appendActions (s : State) (as : List Action) : State × List Nat :=
  let taken := s.actionFree.take as.length
  (({ s with actionFree := s.actionFree.drop as.length }).writeActions taken as, taken)

/-- An accepted NEW part (R171). -/
def State.loadNew (s : State) (c l : Nat) (t : Trigger) (as : List Action) : State :=
  let s := { s with actionFree := s.actionFree ++ (s.cue c).chain }
  let r := s.appendActions as
  r.1.setCue c { state := .loaded, list := l, trigger := t, next := none, chain := r.2, late := false }

/-- An accepted APPEND part (R171). -/
def State.loadAppend (s : State) (c : Nat) (as : List Action) : State :=
  let r := s.appendActions as
  r.1.setCue c { s.cue c with chain := (s.cue c).chain ++ r.2 }

/-- The reply's fields of an accepted LOAD_CUE (R171). -/
def State.loadCueFields (s : State) (c : Nat) : List Byte :=
  u8 (s.cue c).state.code ++ u8 (s.cue c).chain.length ++ u16 s.actionFree.length

/-- The last checks of LOAD_CUE (R170, 4 to 6) and its effect; `own` counts the cue's own actions that return. -/
def loadCueActions (s : State) (l own : Nat) (fields : List ActionField) (load : State → List Action → State) (c : Nat) :
    Verdict :=
  match fields.mapM s.actionOf with
  | none => .refuse .range
  | some as =>
    if as.any Action.needsForce ∧ !(s.source (s.list l).acting).mayForce then .refuse .notPermitted
    else if s.actionFree.length + own < as.length then .refuse .poolFull
    else .accept (load s as) false ((load s as).loadCueFields c)

/-- LOAD_CUE (R170, R171). -/
def loadCueOwn (h : Header) (b : LoadCueBody) (s : State) : Verdict :=
  let c := b.cue.toNat
  let x := s.cue c
  match listOf b.list with
  | none => .refuse .range
  | some l =>
    if c > 511 ∨ b.mode.toNat > 1 ∨ b.actions.length = 0 ∨ b.actions.length > 32 then .refuse .range
    else match b.trigger with
      | some t =>
        match triggerOf t with
        | none => .refuse .range
        | some t =>
          if !s.mayEdit h l then .refuse .notPermitted
          else if x.inList then .refuse .inUse
          else loadCueActions s l x.chain.length b.actions (fun s as => s.loadNew c l t as) c
      | none =>
        if !s.mayEdit h l then .refuse .notPermitted
        else if x.state = .empty then .refuse .notFound
        else if x.inList then .refuse .inUse
        else if x.list ≠ l ∨ x.chain.length + b.actions.length > 64 then .refuse .range
        else loadCueActions s l 0 b.actions (fun s as => s.loadAppend c as) c

/-! ### Linking (R172 to R174) -/

/-- The place of a linked cue: at the tail (R172). -/
def State.linkTail (s : State) (l c : Nat) : State :=
  let d := s.list l
  let s := s.setCue c { s.cue c with state := .armed, late := false, next := none }
  match d.tail with
  | none => s.setList l { d with first := some c, tail := some c }
  | some t => (s.setCue t { s.cue t with next := some c }).setList l { d with tail := some c }

/-- The place of a linked cue: after a cue of the list (R172). Where that cue's next was the head, the linked cue is
the head. -/
def State.linkAfter (s : State) (l c x : Nat) : State :=
  let d := s.list l
  let next := (s.cue x).next
  let s := s.setCue c { s.cue c with state := .armed, late := false, next := next }
  let s := s.setCue x { s.cue x with next := some c }
  s.setList l { d with tail := if next.isNone then some c else d.tail,
                       head := if next.isSome ∧ next = d.head then some c else d.head }

/-- The list's first, head and tail. -/
def State.linkFields (s : State) (l : Nat) : List Byte :=
  opt16 (s.list l).first ++ opt16 (s.list l).head ++ opt16 (s.list l).tail

/-- LINK_CUE (R172). -/
def linkCueOwn (h : Header) (list : Byte) (cue : Half) (position : PositionField) (s : State) : Verdict :=
  let c := cue.toNat
  match listOf list with
  | none => .refuse .range
  | some l =>
    if c > 511 then .refuse .range
    else match position with
      | .unknown _ => .refuse .range
      | .tail =>
        if !s.mayEdit h l then .refuse .notPermitted
        else if (s.cue c).state = .empty then .refuse .notFound
        else if (s.cue c).inList then .refuse .inUse
        else if (s.cue c).list ≠ l then .refuse .range
        else .accept (s.linkTail l c) false ((s.linkTail l c).linkFields l)
      | .after x =>
        let x := x.toNat
        if x > 511 then .refuse .range
        else if !s.mayEdit h l then .refuse .notPermitted
        else if (s.cue c).state = .empty then .refuse .notFound
        else if (s.cue c).inList then .refuse .inUse
        else if (s.cue c).list ≠ l then .refuse .range
        else if !((s.cue x).inList && (s.cue x).list == l) then .refuse .notFound
        else .accept (s.linkAfter l c x) false ((s.linkAfter l c x).linkFields l)

/-- A cue out of its chain (R173). -/
def State.unlink (s : State) (l c : Nat) : State :=
  let d := s.list l
  let next := (s.cue c).next
  let prev := s.predecessor l c
  let s := match prev with
    | some p => s.setCue p { s.cue p with next := next }
    | none => s
  let s := s.setCue c { s.cue c with state := .loaded, next := none, late := false }
  s.setList l { d with first := if d.first = some c then next else d.first,
                       tail := if d.tail = some c then prev else d.tail,
                       head := if d.head = some c then next else d.head }

/-- UNLINK_CUE (R173). The reply carries no fields (log 10). -/
def unlinkCueOwn (h : Header) (cue : Half) (s : State) : Verdict :=
  let c := cue.toNat
  let l := (s.cue c).list
  if c > 511 then .refuse .range
  else if !(s.cue c).inList then .refuse .notFound
  else if !s.mayEdit h l then .refuse .notPermitted
  else if (s.list l).state = .running ∧ (s.list l).head = some c then .refuse .inUse
  else .accept (s.unlink l c) false []

/-- ERASE_CUE (R174). -/
def eraseCueOwn (h : Header) (cue : Half) (s : State) : Verdict :=
  let c := cue.toNat
  let x := s.cue c
  if c > 511 then .refuse .range
  else if x.state = .empty then .refuse .notFound
  else if !s.mayEdit h x.list then .refuse .notPermitted
  else if x.inList then .refuse .inUse
  else
    let s := { s with actionFree := s.actionFree ++ x.chain }
    .accept (s.setCue c (Cue.por c)) false (u16 s.actionFree.length)

/-! ### The list descriptor -/

/-- A last late record, absent as a presence byte 0 and all ones (R188). -/
def lateBytes : Option LateRecord → List Byte
  | none => u8 0 ++ List.replicate 7 255
  | some r => u8 1 ++ u16 r.cue ++ u8 r.cause.code ++ be32 r.frame

/-- Every field of a list descriptor, in the order of R169. -/
def CueList.bytes (d : CueList) : List Byte :=
  u8 d.state.code ++ opt16 d.first ++ opt16 d.tail ++ opt16 d.head ++ u8 d.acting ++ u8 d.loop ++ u8 d.passes ++
    be32 d.lastFire ++ mark d.goPending ++ lateBytes d.lastLate

/-- Some cue that is not EMPTY and is loaded for a list holds a FORCE_SET, FORCE_CLEAR or MASTER_SET action (R175). -/
def State.listNeedsForce (s : State) (l : Nat) : Bool :=
  s.cues.entries.any fun e =>
    e.2.state != .empty && e.2.list == l && e.2.chain.any fun a => (s.action a).needsForce

/-- SET_LIST (R175). -/
def setListOwn (h : Header) (list acting loop : Byte) (s : State) : Verdict :=
  if !h.configures then .refuse .notPermitted
  else match listOf list with
    | none => .refuse .range
    | some l =>
      if acting.toNat > 4 then .refuse .range
      else if (s.list l).state ≠ .stopped then .refuse .inUse
      else if !(s.source acting.toNat).mayForce ∧ s.listNeedsForce l then .refuse .notPermitted
      else
        let d := { s.list l with acting := acting.toNat, loop := loop.toNat }
        .accept (s.setList l d) false d.bytes

/-- START_LIST (R176). -/
def startListOwn (h : Header) (list : Byte) (s : State) : Verdict :=
  match listOf list with
  | none => .refuse .range
  | some l =>
    if !s.mayEdit h l then .refuse .notPermitted
    else if (s.list l).state = .running then .refuse .inUse
    else if (s.list l).first = none then .refuse .notFound
    else
      let s := s.armList l
      let d := s.list l
      let d := { d with state := .running, head := d.first, passes := loopPasses d.loop, goPending := false,
                        lastFire := s.timer.counter + 2 }
      .accept (s.setList l d) false d.bytes

/-- STOP_LIST (R176): without effect on a STOPPED list. -/
def stopListOwn (h : Header) (list : Byte) (s : State) : Verdict :=
  match listOf list with
  | none => .refuse .range
  | some l =>
    if !s.mayEdit h l then .refuse .notPermitted
    else
      let d := s.list l
      if d.state = .stopped then .accept s false d.bytes
      else
        let d := { d with state := .stopped, goPending := false }
        .accept (s.setList l d) false d.bytes

/-- GO (R177). -/
def goOwn (h : Header) (list : Byte) (s : State) : Verdict :=
  match listOf list with
  | none => .refuse .range
  | some l =>
    let d := s.list l
    if h.src ≠ 0 ∧ h.src ≠ d.acting then .refuse .notPermitted
    else match d.state with
      | .ended => .refuse .listEnded
      | .stopped => .refuse .notRunning
      | .running =>
        if d.goPending then .refuse .alreadyPending
        else .accept (s.setList l { d with goPending := true }) false (be32 s.timer.counter ++ opt16 d.head)

/-! ### Evaluation and firing (R178 to R182) -/

/-- Whether the head of a list is due at the frame start that delivered the counter (R178). -/
def State.headDue (s : State) (l : Nat) : Bool :=
  let d := s.list l
  let n := s.timer.counter + 1
  d.state == .running && match d.head with
    | none => false
    | some c => d.goPending || match (s.cue c).trigger with
      | .go => false
      | .atFrame f => signedDiff f n ≤ 0
      | .follow k => signedDiff n d.lastFire ≥ k

/-- The priority a cue's TAKE receives (R39, R62). -/
def firedPriority (src : Source) : Option Nat → Nat
  | none => src.priority
  | some p => min p src.ceiling

/-- A drop at firing (R90, R179): the arrival number is absent and the frame is the frame start of firing. -/
def State.dropAtFiring (s : State) (source cue : Nat) (reason : FailReason) : State :=
  s.recordFailure { arrival := none, kind := .take, source := source, origin := .cue cue,
                    effective := s.timer.counter + 1, frame := s.timer.counter, reason := reason }

/-- A TAKE action at firing (R62, R179). -/
def State.fireTake (s : State) (source cue : Nat) (a : TakeAction) : State :=
  if s.sourceOutOfRange a.selector a.value.at then s.dropAtFiring source cue .kindMismatch
  else match s.reserveProblem source (.spec a.value) a.selector.count, s.freeSlot with
    | some r, _ => s.dropAtFiring source cue r
    | none, none => s.dropAtFiring source cue .tableFull
    | none, some k =>
      s.reserve k (newContribution source a.name (firedPriority (s.source source) a.priority) a.selector (.spec a.value)
        a.fadeIn a.fadeOut a.policy (.cue cue) (s.timer.counter + 1)) []

/-- The entry body of an action other than TAKE, formed as its command's body would be (R168, R179). -/
def Action.body (source : Nat) : Action → Option EntryBody
  | .take _ => none
  | .release n f => some (.release (.name n) f)
  | .releaseSource => some (.releaseSource source none)
  | .pause n => some (.pause (.name n))
  | .resume n => some (.resume (.name n))
  | .forceSet x m v => some (.forceSet x m v)
  | .forceClear x => some (.forceClear x)
  | .freeze g => some (.freeze g)
  | .thaw g => some (.thaw g)
  | .masterSet m t f => some (.masterSet m t f)
  | .platePlay p => some (.platePlay p)
  | .plateStop p => some (.plateStop p)

/-- One action of a firing cue (R179, steps 1 to 4). -/
def State.fireAction (s : State) (source cue a : Nat) : State :=
  match s.action a with
  | .take t => s.fireTake source cue t
  | x => match x.body source with
    | some b => s.enqueue source (.cue cue) (s.timer.counter + 1) b
    | none => s

/-- A new pass (R182): the cues ARMED, the head first. -/
def State.newPass (s : State) (l : Nat) : State :=
  let s := s.armList l
  s.setList l { s.list l with head := (s.list l).first }

/-- What follows a firing that leaves the head absent (R182). -/
def State.endPass (s : State) (l : Nat) : State :=
  let d := s.list l
  if d.loop = 255 then s.newPass l
  else if d.passes > 0 then
    let s := s.newPass l
    s.setList l { s.list l with passes := d.passes - 1 }
  else (s.setList l { d with state := .ended, head := none }).raise .listEnd

/-- The firing of a list's head (R179). -/
def State.fireCue (s : State) (l c : Nat) : State :=
  let source := (s.list l).acting
  let s := s.each (fun t a => t.fireAction source c a) (s.cue c).chain
  let s := s.setCue c { s.cue c with state := .fired }
  let next := (s.cue c).next
  let s := s.setList l { s.list l with lastFire := s.timer.counter + 1, goPending := false, head := next }
  if next.isNone then s.endPass l else s

/-- A due head that does not fire (R180). -/
def State.holdLate (s : State) (l c : Nat) (cause : LateCause) : State :=
  if (s.cue c).late then s
  else
    let s := s.setCue c { s.cue c with late := true }
    (s.setList l { s.list l with lastLate := some ⟨c, cause, s.timer.counter⟩ }).raise .cueLate

def State.setEvaluation (s : State) (e : Option Evaluation) : State :=
  s.setWork { s.work with evaluation := e }

/-- The evaluation of list B follows that of list A (R178). -/
def Evaluation.after (e : Evaluation) : Option Evaluation := if e.list = 0 then some ⟨1, 0⟩ else none

/-- One turn of the evaluation (R178, steps 1 to 4): a head fires (true), or the list's evaluation stops (false). The cap
of R181 is tested before the queue room of R179, so a due head that fails both has cause CAP (DESIGN CHOICE, log 40). -/
def State.evaluateOnce (s : State) : State × Bool :=
  match s.work.evaluation with
  | none => (s, false)
  | some e =>
    match (s.list e.list).head with
    | none => (s.setEvaluation e.after, false)
    | some c =>
      if !s.headDue e.list then (s.setEvaluation e.after, false)
      else if e.fired ≥ 16 then ((s.holdLate e.list c .cap).setEvaluation e.after, false)
      else if s.queueRoom < (s.cue c).chain.length then ((s.holdLate e.list c .room).setEvaluation e.after, false)
      else ((s.fireCue e.list c).setEvaluation (some ⟨e.list, e.fired + 1⟩), true)

/-- Pass over the lists whose head is not due. -/
def State.skipIdle (s : State) : State :=
  match s.work.evaluation with
  | none => s
  | some e =>
    if s.headDue e.list then s
    else match e.after with
      | none => s.setEvaluation none
      | some f => if s.headDue f.list then s.setEvaluation (some f) else s.setEvaluation none

/-- The evaluation up to and including the next firing, or to its end where none follows. -/
def State.evaluateToFire (s : State) : State :=
  let r := s.evaluateOnce
  let r := if r.2 then r else r.1.evaluateOnce
  r.1.skipIdle

/-- The rest of the evaluation: at most 16 firings and one stop for each list (R181). -/
def State.evaluateAll (s : State) : Nat → State
  | 0 => s
  | n + 1 => s.evaluateOnce.1.evaluateAll n

/-! ### SOFT_CLEAR (R166, R169) -/

/-- A cue under SOFT_CLEAR: ARMED when in a list, late mark off. -/
def Cue.softClear (x : Cue) : Cue := { x with state := if x.inList then .armed else x.state, late := false }

/-- A list under SOFT_CLEAR. -/
def CueList.softClear (d : CueList) : CueList :=
  { d with state := .stopped, head := d.first, passes := loopPasses d.loop, goPending := false, lastLate := none }

/-! ### READ_CUE and READ_LIST (R184) -/

/-- A trigger in a READ_CUE reply, as LOAD_CUE carries it (R184): its code and the fields of that kind alone, so GO is 1
byte, AT_FRAME 5 and FOLLOW 3 (DESIGN CHOICE, log 10). -/
def Trigger.bytes : Trigger → List Byte
  | .go => u8 0
  | .atFrame f => u8 1 ++ be32 f
  | .follow d => u8 2 ++ u16 d

/-- An action's fields, as LOAD_CUE carries them (log 9). -/
def Action.bytes : Action → List Byte
  | .take a =>
    u8 0 ++ u16 a.name ++ a.selector.bytes ++ a.value.bytes ++ opt8 a.priority ++ u16 a.fadeIn ++ u16 a.fadeOut ++
      u8 a.policy.code
  | .release n f => u8 1 ++ u16 n ++ present16 f
  | .releaseSource => u8 2
  | .pause n => u8 3 ++ u16 n
  | .resume n => u8 4 ++ u16 n
  | .forceSet x m v => u8 5 ++ x.bytes ++ u8 m.code ++ v.bytes
  | .forceClear x => u8 6 ++ x.bytes
  | .freeze g => u8 7 ++ u8 g
  | .thaw g => u8 8 ++ u8 g
  | .masterSet m t f => u8 9 ++ u8 m ++ u16 t ++ u16 f
  | .platePlay p => u8 10 ++ u8 p
  | .plateStop p => u8 11 ++ u8 p

/-- A cue as READ_CUE reports it (R184). An EMPTY cue's list, trigger and next are sent as absent, its action count and
its late mark as 0 and not as absent (DESIGN CHOICE, log 10). -/
def State.cueBytes (s : State) (c : Nat) : List Byte :=
  let x := s.cue c
  u8 x.state.code ++ (if x.state = .empty then u8 255 ++ u8 255 else u8 x.list ++ x.trigger.bytes) ++ opt16 x.next ++
    u8 x.chain.length ++ mark x.late ++ u16 s.actionFree.length

/-- An action window in range (R184). -/
def Cue.windowFits (x : Cue) (w : Window) : Bool :=
  w.first.toNat ≤ 63 && 1 ≤ w.count.toNat && w.count.toNat ≤ 32 && w.first.toNat + w.count.toNat ≤ x.chain.length

/-- The actions of a window, in action order. -/
def State.actionWindow (s : State) (c : Nat) (w : Window) : List Byte :=
  (((s.cue c).chain.drop w.first.toNat).take w.count.toNat).flatMap fun a => (s.action a).bytes

/-- READ_CUE (R184). Any window on an EMPTY cue is NOT_FOUND, one out of its own range included: DESIGN CHOICE, log 34. -/
def readCueOwn (cue : Half) (w : Option Window) (s : State) : Verdict :=
  let c := cue.toNat
  if c > 511 then .refuse .range
  else match w with
    | none => .accept s false (s.cueBytes c)
    | some w =>
      if (s.cue c).state = .empty then .refuse .notFound
      else if !(s.cue c).windowFits w then .refuse .range
      else .accept s false (s.cueBytes c ++ s.actionWindow c w)

/-- READ_LIST (R184). -/
def readListOwn (list : Byte) (s : State) : Verdict :=
  match listOf list with
  | none => .refuse .range
  | some l =>
    .accept s false ((s.list l).bytes ++ u16 (s.chain l).length ++
      (s.chain l).flatMap fun c => u16 c ++ u8 (s.cue c).state.code)

end Sys2Proof.Machine
end

