-- ==== Sys2Proof/Machine/Points.lean ====
section
/-! DEFINITION. Points, groups and curves (spec chapter 2): the arrival checks, the applications, DEFINE_GROUP and the
reads. -/

namespace Sys2Proof.Machine

/-- SET_POINT at arrival (R23). -/
def setPointArrival (h : Header) (b : SetPointBody) (s : State) : Verdict :=
  if !h.configures then .refuse .notPermitted
  else match pointFieldsOf b, effectiveFrame s.timer.counter h with
    | some f, some (eff, clamped) =>
      queueCommand s h eff (clamped || f.offset != signed16 b.offset) (.setPoint b.point.toNat f) none
    | _, _ => .refuse .range

/-- Whether a force does not suit a point of kind SOURCE (R24, check 3). -/
def forceUnsuitsSource : Option Force → Bool
  | none => false
  | some f => f.mode != .park || f.value > 12

/-- SET_POINT at application (R24). -/
def applySetPoint (s : State) (e : Entry) (p : Nat) (f : PointFields) : State :=
  let pt := s.point p
  if !pt.binding.allows f.kind then s.drop e .kindMismatch
  else if f.kind ≠ pt.fields.kind ∧ !(s.slotsWhere fun c => s.covers c.selector p).isEmpty then s.drop e .inUse
  else if f.kind = .source ∧ forceUnsuitsSource (s.force p) then s.drop e .inUse
  else s.setPoint p { pt with fields := f, retake := pt.retake || f.kind != pt.fields.kind }

/-- BIND_POINT at arrival (R25). -/
def bindPointArrival (h : Header) (point : Half) (b : BindingField) (s : State) : Verdict :=
  if !h.configures then .refuse .notPermitted
  else if point.toNat > 2559 then .refuse .range
  else match bindingOf b, effectiveFrame s.timer.counter h with
    | some b, some (eff, clamped) => queueCommand s h eff clamped (.bindPoint point.toNat b) none
    | _, _ => .refuse .range

/-- Write one value into each of a list of occupancy entries. -/
def State.setOccupants (s : State) (v : Option Nat) (ks : List Nat) : State := s.each (fun s k => s.setOccupant k v) ks

/-- BIND_POINT at application (R26). -/
def applyBindPoint (s : State) (e : Entry) (p : Nat) (b : Binding) : State :=
  let pt := s.point p
  if !b.allows pt.fields.kind then s.drop e .kindMismatch
  else if b.outputs.any (fun k => (s.occupant k).any fun q => q != p) then s.drop e .bindConflict
  else ((s.setOccupants none pt.binding.outputs).setOccupants (some p) b.outputs).setPoint p { pt with binding := b }

/-- LOAD_CURVE at arrival (R35). The spec does not place the effective-frame check against curve 0's NOT_PERMITTED; RANGE
comes first here: DESIGN CHOICE, log 33. -/
def loadCurveArrival (h : Header) (curve : Byte) (knots : List Half) (s : State) : Verdict :=
  if !h.configures then .refuse .notPermitted
  else match effectiveFrame s.timer.counter h with
    | none => .refuse .range
    | some (eff, clamped) =>
      if curve.toNat > 7 then .refuse .range
      else if curve = 0 then .refuse .notPermitted
      else queueCommand s h eff clamped (.loadCurve curve.toNat (knots.map BitVec.toNat)) none

/-- LOAD_CURVE at application (R35): all knots at once. -/
def applyLoadCurve (s : State) (c : Nat) (knots : List Nat) : State := s.setCurve c knots

/-- The definition DEFINE_GROUP would store (R31), or none where check 4 refuses it. -/
def groupOf (b : DefineGroupBody) : Option Group :=
  let base := b.base.toNat
  let count := b.count.toNat
  let stride := b.stride.toNat
  if count = 0 then some ⟨0, 0, 1⟩
  else if count > 2560 ∨ stride < 1 ∨ stride > 64 ∨ base > 2559 ∨ base + (count - 1) * stride + (stride - 1) > 2559 then
    none
  else some ⟨base, count, stride⟩

/-- DEFINE_GROUP (R31). -/
def defineGroupOwn (h : Header) (b : DefineGroupBody) (s : State) : Verdict :=
  if !h.configures then .refuse .notPermitted
  else if b.group.toNat > 127 then .refuse .range
  else if b.group = 0 then .refuse .notPermitted
  else match groupOf b with
    | none => .refuse .range
    | some g =>
      if s.groupInUse b.group.toNat then .refuse .inUse
      else .accept (s.setGroup b.group.toNat g) false (u16 g.base ++ u16 g.count ++ u8 g.stride)

/-- READ_POINT (R36). -/
def readPointOwn (point : Half) (s : State) : Verdict :=
  let p := point.toNat
  if p > 2559 then .refuse .range
  else
    let pt := s.point p
    let r := s.result p
    .accept s false
      (u8 pt.fields.kind.code ++ pt.binding.bytes ++ u16 pt.fields.home ++ u8 pt.fields.curve ++ opt8 pt.fields.master ++
        i16 pt.fields.offset ++ mark pt.fields.member ++ forceBytes (s.force p) ++ present32 s.renderFrame ++
        u16 r.merged ++ u16 r.output ++ mark r.frozen ++ handleBytes r.winner)

/-- READ_GROUP (R37): group 0 always reads in use. -/
def readGroupOwn (group : Byte) (s : State) : Verdict :=
  let g := group.toNat
  if g > 127 then .refuse .range
  else
    let d := s.group g
    .accept s false
      (u16 d.base ++ u16 d.count ++ u8 d.stride ++ u8 (s.freezeCount g) ++ mark (g == 0 || s.groupInUse g))

/-- READ_CURVE (R37). -/
def readCurveOwn (curve : Byte) (s : State) : Verdict :=
  if curve.toNat > 7 then .refuse .range else .accept s false ((s.curve curve.toNat).flatMap u16)

end Sys2Proof.Machine
end

