-- ==== Sys2Proof/Machine/Lines.lean ====
section
/-! DEFINITION. Lamp lines (spec chapter 8): SET_LINE and READ_LINE, the taking of a render's set, the end of a line
frame, and the bytes and characters a line frame puts on the wire. -/

namespace Sys2Proof.Machine

/-! ### The wire (R135, R136) -/

/-- Begin a line frame with a set at the stored slot count and rate (R137, R139). -/
def Line.begin (x : Line) (v : LineSet) : LineFrame := ⟨v.sequence, x.count, x.rate, v.values⟩

/-- The bytes of a line frame: the four header bytes, then slots 0 to slot count − 1 (R135, R136). -/
def LineFrame.bytes (line : Nat) (f : LineFrame) : List Byte :=
  u8 line ++ u8 f.sequence ++ u16 f.count ++ (List.range f.count).flatMap fun j => u8 (f.values.get SlotValue.por j)

/-- The eleven wire bits of a character (11.8): start low, data bit 0 first, frame-mark, stop high. -/
def characterBits (first : Bool) (b : Byte) : List Bool :=
  [false] ++ (List.range 8).map (fun k => b.getLsbD k) ++ [first, true]

/-- A line frame on the wire, back to back, the frame-mark on the first character only (R135). -/
def LineFrame.wire (line : Nat) (f : LineFrame) : List Bool :=
  match f.bytes line with
  | [] => []
  | b :: rest => characterBits true b ++ rest.flatMap (characterBits false)

/-- The idle level of a lamp line: high (11.8). -/
def lineIdleLevel : Bool := true

/-- The level of the wire of lamp line `line` in the bit time `k` after the beginning of its frame in flight: that
frame's bit while the frame lasts, and the idle level behind it (R135). With no frame in flight, between frames and
while the line is disabled, it is the idle level at every `k` (R135, R139). -/
def Line.level (x : Line) (line k : Nat) : Bool :=
  match x.inFlight with
  | none => lineIdleLevel
  | some f => (f.wire line).getD k lineIdleLevel

/-- The level of line LAMP`l`, as the part stands (R135). -/
def State.lampLevel (s : State) (l k : Nat) : Bool := (s.line l).level l k

/-! ### Configuration (R134, R140) -/

def transmitterCode (sending : Bool) : Nat := if sending then 1 else 0

/-- SET_LINE (R134, R140). -/
def setLineOwn (h : Header) (line enabled : Byte) (count : Half) (rate : Byte) (s : State) : Verdict :=
  if !h.configures then .refuse .notPermitted
  else match onOff enabled with
    | none => .refuse .range
    | some on =>
      let l := line.toNat
      if l > 7 ∨ count = 0 ∨ count.toNat > 384 ∨ rate.toNat > 2 then .refuse .range
      else
        let x := s.line l
        .accept
          (s.setLine l { x with enabled := on, count := count.toNat, rate := rate.toNat,
                                waiting := if on then x.waiting else none })
          false
          (mark on ++ u16 count.toNat ++ u8 rate.toNat ++ u8 (transmitterCode x.inFlight.isSome) ++ u8 x.sequence)

/-- A line as READ_LINE reports it (R141). In IDLE the fields of the frame in flight are sent as absent, and behind the
waiting mark the waiting sequence has a presence byte of its own (DESIGN CHOICE, log 10). -/
def Line.bytes (x : Line) : List Byte :=
  mark x.enabled ++ u16 x.count ++ u8 x.rate ++ u8 x.sequence ++ u8 (transmitterCode x.inFlight.isSome) ++
    present8 (x.inFlight.map LineFrame.sequence) ++ opt16 (x.inFlight.map LineFrame.count) ++
    opt8 (x.inFlight.map LineFrame.rate) ++ mark x.waiting.isSome ++ present8 (x.waiting.map LineSet.sequence) ++
    u16 x.slips ++ u16 x.drops

/-- READ_LINE (R141). -/
def readLineOwn (h : Header) (line clear : Byte) (s : State) : Verdict :=
  match onOff clear with
  | none => .refuse .range
  | some c =>
    let l := line.toNat
    if l > 7 then .refuse .range
    else if c ∧ !h.configures then .refuse .notPermitted
    else
      let x := s.line l
      .accept (if c then s.setLine l { x with slips := 0, drops := 0 } else s) false x.bytes

/-! ### Render complete and the end of a frame (R137 to R139) -/

/-- What an enabled line does with a render's set (R137, R138): begin it, or hold it waiting. -/
def Line.takeSet (x : Line) (values : Table Nat) : Line :=
  let v : LineSet := ⟨(x.sequence + 1) % 256, values⟩
  match x.inFlight with
  | none => { x with sequence := v.sequence, inFlight := some (x.begin v) }
  | some _ =>
    { x with sequence := v.sequence, waiting := some v, slips := saturate 65535 x.slips,
             drops := if x.waiting.isSome then saturate 65535 x.drops else x.drops }

/-- A line at render complete (R137, R138): an enabled one takes the set, with OUTPUT_SLIP where it is SENDING. -/
def State.lineTakes (s : State) (l : Nat) (values : Table Nat) : State :=
  let x := s.line l
  if x.enabled then
    let s' := s.setLine l (x.takeSet values)
    if x.inFlight.isSome then s'.raise .outputSlip else s'
  else s

/-- The end of the frame in flight (R139). -/
def Line.endFrame (x : Line) : Line :=
  match x.inFlight, x.waiting with
  | none, _ => x
  | some _, some v =>
    if x.enabled then { x with inFlight := some (x.begin v), waiting := none } else { x with inFlight := none }
  | some _, none => { x with inFlight := none }

/-- RESET# low (R133, R193): the frame in flight is abandoned, the line idle, its wire at the idle level at once. -/
def Line.abandon (x : Line) : Line := { x with inFlight := none, waiting := none }

/-- SOFT_CLEAR on a line (R133). -/
def Line.softClear (x : Line) : Line := { x with slips := 0, drops := 0 }

end Sys2Proof.Machine
end

