-- ==== Sys2Proof/Config.lean ====
section
/-! DEFINITION. The values the spec leaves open, as opaque constants that nothing in Lean can evaluate. -/

namespace Sys2Proof

/-- The component (channel 0 red, 1 green, 2 blue) at a column and line of the most recent complete picture
that live input `input` has received, at the moment a tile packet reads it (R142). The picture is the studio's
own: the spec gives its size and the range of a component, never its content. `draw` counts the packets that have
read the inputs, so that two packets may see two pictures. A FREE VALUE: assumption log 12. -/
opaque Config.vinComponent (input draw channel column line : Nat) : BitVec 10

end Sys2Proof
end

