-- ==== Sys2Proof/Machine/Plates.lean ====
section
/-! DEFINITION. Plates (spec 9.2 and 9.3): LOAD_PLATE and its checks, play and stop, the advance of a playing plate, the
walk over an image's descriptors and READ_PLATE. -/

namespace Sys2Proof.Machine

/-! ### The clip (R145) -/

/-- Images among some descriptors: the end-of-image marks. -/
def State.imageCount (s : State) (clip : List Nat) : Nat := (clip.filter fun d => (s.descriptor d).endOfImage).length

/-- The descriptors of image k of a clip, top line first (R145). -/
def State.imageRun (s : State) : Nat → List Nat → List Nat
  | _, [] => []
  | k, d :: ds =>
    if (s.descriptor d).endOfImage then (if k = 0 then [d] else s.imageRun (k - 1) ds)
    else if k = 0 then d :: s.imageRun 0 ds
    else s.imageRun k ds

/-- The frame-memory address of column 0 of line r of a run of descriptors, each line `width` pixels (R145). -/
def State.lineAddress (s : State) (width : Nat) : List Nat → Nat → Option Nat
  | [], _ => none
  | d :: ds, r =>
    if r < (s.descriptor d).lines then some ((s.descriptor d).address + r * width * 4)
    else s.lineAddress width ds (r - (s.descriptor d).lines)

/-- The frame-memory address of a pixel of a plate's image (R145). -/
def State.pixelAddress (s : State) (plate image line column : Nat) : Option Nat :=
  (s.lineAddress (s.plate plate).width (s.imageRun image (s.plate plate).clip) line).map (· + column * 4)

/-- A pixel word's components (11.8). -/
def wordPixel (w : Word) : Pixel := ⟨w.extractLsb' 20 10, w.extractLsb' 10 10, w.extractLsb' 0 10⟩

/-- A pixel's word (11.8), bits 31 and 30 zero. -/
def pixelWord (p : Pixel) : Word := (0#2) ++ p.red ++ p.green ++ p.blue

/-! ### LOAD_PLATE (R146, R147) -/

/-- End-of-image is bit 0 of an entry's marks, and bit 1 is ignored (11.8). 11.8 does not name bits 2 to 7, which are
ignored too (DESIGN CHOICE, log 9). -/
def endOfImageMark (d : DescriptorField) : Bool := d.marks.getLsbD 0

/-- One descriptor of check 5 against a canvas width. -/
def descriptorFits (width : Nat) (d : DescriptorField) : Bool :=
  d.lines.toNat != 0 && d.address.toNat % 4 == 0 && d.address.toNat + d.lines.toNat * (width * 4) ≤ 4294967296

/-- The runs of check 5: the line counts up to each end-of-image mark sum to the height, and the last descriptor
carries the mark. `sum` holds the lines of the run so far. -/
def runsFit (height : Nat) : Nat → List DescriptorField → Bool
  | sum, [] => sum == 0
  | sum, d :: ds =>
    if endOfImageMark d then sum + d.lines.toNat == height && runsFit height 0 ds
    else runsFit height (sum + d.lines.toNat) ds

/-- Check 5 of R146. -/
def descriptorsFit (width height : Nat) (ds : List DescriptorField) : Bool :=
  ds.all (descriptorFits width) && runsFit height 0 ds && ds.getLast?.all endOfImageMark

/-- Checks 3 of R146: a FIRST part's fields with their end mode. -/
def plateFirstOf (f : PlateFirst) : Option EndMode :=
  if f.width = 0 ∨ f.width.toNat > 3840 ∨ f.height = 0 ∨ f.height.toNat > 2160 ∨ f.hold = 0 then none
  else endModeOf f.endMode

/-- Write a part's descriptors into the numbers taken for them. -/
def State.writeDescriptors (s : State) : List Nat → List DescriptorField → State
  | n :: ns, d :: ds =>
    (s.setDescriptor n ⟨d.address.toNat, d.lines.toNat, endOfImageMark d, false⟩).writeDescriptors ns ds
  | _, _ => s

/-- The FIRST part's first step (R147): the plate's descriptors return, and it is UNDEFINED with load open. -/
def State.openLoad (s : State) (p : Nat) (f : PlateFirst) (mode : EndMode) : State :=
  let x := s.plate p
  let s := { s with descriptorFree := s.descriptorFree ++ x.clip }
  s.setPlate p { x with state := .undefined, loadOpen := true, width := f.width.toNat, height := f.height.toNat,
                        hold := f.hold.toNat, endMode := mode, clip := [], image := 0, held := 0, cleared := false }

/-- The append of every accepted part (R147): descriptors from the front of the free list, in the part's order. -/
def State.appendPart (s : State) (p : Nat) (ds : List DescriptorField) : State :=
  let taken := s.descriptorFree.take ds.length
  let s := { s with descriptorFree := s.descriptorFree.drop ds.length }
  let s := s.writeDescriptors taken ds
  s.setPlate p { s.plate p with clip := (s.plate p).clip ++ taken }

/-- The completion by the part with the last mark (R147). -/
def State.closeLoad (s : State) (p : Nat) : State :=
  let x := s.plate p
  let s := match x.clip.getLast? with
    | some d => s.setDescriptor d { s.descriptor d with endOfClip := true }
    | none => s
  s.setPlate p { x with state := .stopped, loadOpen := false, image := 0, held := 0, late := 0 }

/-- The reply's fields of an accepted LOAD_PLATE (R147). -/
def State.loadPlateFields (s : State) (p : Nat) : List Byte :=
  let x := s.plate p
  u8 x.state.code ++ mark x.loadOpen ++ u16 (s.imageCount x.clip) ++ u16 x.clip.length ++ u16 s.descriptorFree.length

/-- Accept a part (R147). -/
def acceptPart (s : State) (p : Nat) (last : Bool) (ds : List DescriptorField) : Verdict :=
  let s := s.appendPart p ds
  let s := if last then s.closeLoad p else s
  .accept s false (s.loadPlateFields p)

/-- LOAD_PLATE (R146, R147). A last mark other than 0 or 1 (R188), which R146's list does not place, is judged with its
check 2, so its RANGE comes before the NOT_FOUND of check 4, the IN_USE of check 7 and the TABLE_FULL of check 8 (DESIGN
CHOICE, log 39). -/
def loadPlateOwn (h : Header) (b : LoadPlateBody) (s : State) : Verdict :=
  let p := b.plate.toNat
  let x := s.plate p
  let ds := b.descriptors
  let images := (ds.filter endOfImageMark).length
  if !h.configures then .refuse .notPermitted
  else match onOff b.last with
    | none => .refuse .range
    | some last =>
      if p > 7 ∨ b.part.toNat > 1 ∨ ds.length = 0 ∨ ds.length > 128 then .refuse .range
      else match b.first with
        | some f =>
          match plateFirstOf f with
          | none => .refuse .range
          | some mode =>
            if !descriptorsFit f.width.toNat f.height.toNat ds then .refuse .range
            else if x.state = .playing ∨ s.plateShown p then .refuse .inUse
            else if s.descriptorFree.length + x.clip.length < ds.length then .refuse .tableFull
            else acceptPart (s.openLoad p f mode) p last ds
        | none =>
          if !x.loadOpen then .refuse .notFound
          else if !descriptorsFit x.width x.height ds then .refuse .range
          else if s.imageCount x.clip + images > 256 then .refuse .range
          else if s.descriptorFree.length < ds.length then .refuse .tableFull
          else acceptPart s p last ds

/-! ### Play and stop (R148) -/

/-- PLATE_PLAY at arrival (R148). -/
def platePlayArrival (h : Header) (plate : Byte) (s : State) : Verdict :=
  if plate.toNat > 7 then .refuse .range
  else match effectiveFrame s.timer.counter h with
    | none => .refuse .range
    | some (eff, clamped) => queueCommand s h eff clamped (.platePlay plate.toNat) none

/-- PLATE_STOP at arrival (R148). -/
def plateStopArrival (h : Header) (plate : Byte) (s : State) : Verdict :=
  if plate.toNat > 7 then .refuse .range
  else match effectiveFrame s.timer.counter h with
    | none => .refuse .range
    | some (eff, clamped) => queueCommand s h eff clamped (.plateStop plate.toNat) none

/-- PLATE_PLAY at application (R148). -/
def applyPlatePlay (s : State) (e : Entry) (p : Nat) : State :=
  let x := s.plate p
  match x.state with
  | .undefined => s.drop e .plateUndefined
  | .stopped => s.setPlate p { x with state := .playing }
  | .playing => s
  | .ended => s.setPlate p { x with state := .playing, image := 0, held := 0 }
  | .fault => s.setPlate p { x with state := .playing, image := 0, held := 0 }

/-- PLATE_STOP at application (R148). -/
def applyPlateStop (s : State) (e : Entry) (p : Nat) : State :=
  let x := s.plate p
  match x.state with
  | .undefined => s.drop e .plateUndefined
  | .stopped => s
  | .playing => s.setPlate p { x with state := .stopped }
  | .ended => s.setPlate p { x with state := .stopped }
  | .fault => s.setPlate p { x with state := .stopped }

/-! ### Advance (R149) -/

/-- The advance of one plate at a frame start (R149): it is PLAYING and was PLAYING before the application (log 15). A
hold counter that reaches the hold count is left to PLATE_HOLD_EXPIRY (log 4). -/
def State.countPlate (s : State) (p : Nat) : State :=
  let x := s.plate p
  if x.state ≠ .playing ∨ x.wasPlaying = false then s
  else if x.held + 1 < x.hold then s.setPlate p { x with held := x.held + 1 }
  else { s with work := { s.work with platesDue := s.work.platesDue ++ [p] } }

/-- The hold counter of a due plate has reached its hold count (R149, steps 2 and 3). -/
def State.completePlate (s : State) (p : Nat) : State :=
  let x := s.plate p
  let count := s.imageCount x.clip
  if x.state ≠ .playing then s
  else if x.image + 1 < count then s.setPlate p { x with image := x.image + 1, held := 0 }
  else match x.endMode with
    | .loop => s.setPlate p { x with image := 0, held := 0 }
    | .holdLast => (s.setPlate p { x with state := .ended, image := count - 1, held := x.hold - 1 }).raise .plateEnd
    | .black => (s.setPlate p { x with state := .ended, image := count - 1, held := x.hold - 1 }).raise .plateEnd

/-! ### SOFT_CLEAR (R144) -/

/-- A plate under SOFT_CLEAR (R144, R194): a defined one STOPPED at (0, 0), its move or its leaving FAULT marked for the
fetch unit; an open load closed, and on an UNDEFINED plate its descriptors returned. A load that is open on a defined
plate (log 28's case, then FAULT) is closed too, and the part of its clip that has come is the plate's clip, which R144
keeps with its descriptors (DEDUCED, log 28). -/
def State.softClearPlate (s : State) (p : Nat) : State :=
  let x := s.plate p
  if x.state = .undefined then
    if x.loadOpen then
      { s with descriptorFree := s.descriptorFree ++ x.clip }.setPlate p { x with loadOpen := false, clip := [], late := 0 }
    else s.setPlate p { x with late := 0 }
  else
    s.setPlate p { x with state := .stopped, loadOpen := false, image := 0, held := 0, late := 0,
                          cleared := x.cleared || x.state == .fault || (x.image, x.held) != (0, 0) }

/-! ### READ_PLATE (R165) -/

/-- The picture offered (9.2), numbered from 0 in the order of the table of plate states: none, an image, black, the
tiles' retained crops (log 10). -/
def Plate.offered (x : Plate) : Nat :=
  match x.state, x.endMode with
  | .undefined, _ => 0
  | .stopped, _ => 1
  | .playing, _ => 1
  | .ended, .black => 2
  | .ended, .loop => 1
  | .ended, .holdLast => 1
  | .fault, _ => 3

/-- A descriptor's entry (11.8). -/
def Descriptor.bytes (d : Descriptor) : List Byte :=
  u32 d.address ++ u16 d.lines ++ u8 ((if d.endOfImage then 1 else 0) + (if d.endOfClip then 2 else 0)) ++ u8 0

/-- A plate as READ_PLATE reports it (R165); the position is absent in UNDEFINED. -/
def State.plateBytes (s : State) (p : Nat) : List Byte :=
  let x := s.plate p
  let position (n : Nat) : Option Nat := if x.state = .undefined then none else some n
  u8 x.state.code ++ mark x.loadOpen ++ u16 x.width ++ u16 x.height ++ u8 x.hold ++ u8 x.endMode.code ++
    u16 (s.imageCount x.clip) ++ u16 x.clip.length ++ present8 (position x.image) ++ opt8 (position x.held) ++
    u8 x.offered ++ u16 x.late ++ u16 s.descriptorFree.length

/-- A descriptor window in range (R165). -/
def Plate.windowFits (x : Plate) (w : Window) : Bool :=
  1 ≤ w.count.toNat && w.count.toNat ≤ 128 && w.first.toNat + w.count.toNat ≤ x.clip.length

/-- The descriptors of a window, in list order. -/
def State.descriptorWindow (s : State) (p : Nat) (w : Window) : List Byte :=
  (((s.plate p).clip.drop w.first.toNat).take w.count.toNat).flatMap fun d => (s.descriptor d).bytes

/-- READ_PLATE (R165). -/
def readPlateOwn (h : Header) (plate clear : Byte) (w : Option Window) (s : State) : Verdict :=
  match onOff clear with
  | none => .refuse .range
  | some c =>
    let p := plate.toNat
    if p > 7 then .refuse .range
    else if !(w.all (s.plate p).windowFits) then .refuse .range
    else if c ∧ !h.configures then .refuse .notPermitted
    else .accept (if c then s.setPlate p { s.plate p with late := 0 } else s) false
      (s.plateBytes p ++ (w.map (s.descriptorWindow p)).getD [])

end Sys2Proof.Machine
end

