-- ==== Sys2Proof/Machine/Tiles.lean ====
section
/-! DEFINITION. Live inputs, tiles, dissolves, the fetch unit, the pixel path and the tile links (spec 9.1 and 9.4 to
9.9). -/

namespace Sys2Proof.Machine

/-! ### Live inputs (R142, R143) -/

/-- The sample of one input at a frame start (R142). -/
def Input.sampled (x : Input) : Input :=
  { x with sample := x.pin, shown := x.pin && x.enabled,
           losses := if x.sample && !x.pin then saturate 255 x.losses else x.losses }

def State.sampleInput (s : State) (i : Nat) : State := s.setInput i (s.input i).sampled

/-- Picture 0, black 1, in the order of R142's table. -/
def shownCode (shown : Bool) : Nat := if shown then 0 else 1

/-- An input's record (R142, R143); the signal-present status as a mark, 1 when present (DESIGN CHOICE, log 10). -/
def Input.record (x : Input) : List Byte := mark x.enabled ++ mark x.sample ++ u8 (shownCode x.shown) ++ u8 x.losses

/-- SET_INPUT (R143). -/
def setInputOwn (h : Header) (input enabled : Byte) (s : State) : Verdict :=
  if !h.configures then .refuse .notPermitted
  else match onOff enabled with
    | none => .refuse .range
    | some on =>
      let i := input.toNat
      if i > 3 then .refuse .range
      else .accept (s.setInput i { s.input i with enabled := on }) false ({ s.input i with enabled := on }).record

/-- READ_INPUT (R143); the status and its sample as marks, 1 when present (DESIGN CHOICE, log 10). -/
def readInputOwn (h : Header) (input clear : Byte) (s : State) : Verdict :=
  match onOff clear with
  | none => .refuse .range
  | some c =>
    let i := input.toNat
    if i > 3 then .refuse .range
    else if c ∧ !h.configures then .refuse .notPermitted
    else
      let x := s.input i
      .accept (if c then s.setInput i { x with losses := 0 } else s) false
        (mark x.enabled ++ mark x.pin ++ mark x.sample ++ u8 (shownCode x.shown) ++ u8 x.losses)

/-! ### SET_TILE (R155) -/

/-- SET_TILE at arrival (R155). -/
def setTileArrival (h : Header) (b : SetTileBody) (s : State) : Verdict :=
  if !h.configures then .refuse .notPermitted
  else match tileFieldsOf b, effectiveFrame s.timer.counter h with
    | some f, some (eff, clamped) => queueCommand s h eff clamped (.setTile b.tile.toNat f) none
    | _, _ => .refuse .range

/-- The six fields replaced; a dissolve whose e is at or above the new length loses its from source (R155; log 22). -/
def Tile.setFields (x : Tile) (f : TileFields) : Tile :=
  if x.fromSource.isSome ∧ f.dissolve ≤ x.elapsed then
    { x with fields := f, fromSource := none, fromStore := none, elapsed := 0 }
  else { x with fields := f }

/-- SET_TILE at application (R155). -/
def applySetTile (s : State) (t : Nat) (f : TileFields) : State := s.setTile t ((s.tile t).setFields f)

/-! ### Dissolves (R157, R158) -/

/-- The count of one tile's dissolve at a frame start (R158). A count that reaches D is left to DISSOLVE_END (log 4). -/
def State.countDissolve (s : State) (t : Nat) : State :=
  let x := s.tile t
  if x.fromSource.isNone then s
  else if x.elapsed + 1 < x.fields.dissolve then s.setTile t { x with elapsed := x.elapsed + 1 }
  else { s with work := { s.work with dissolvesDue := s.work.dissolvesDue ++ [t] } }

/-- The end of a tile's dissolve (R158): the from source is dropped, its store emptied, and e is 0, as the last row of
9.6's example has it. -/
def State.completeDissolve (s : State) (t : Nat) : State :=
  let x := s.tile t
  if x.fromSource.isNone then s
  else s.setTile t { x with fromSource := none, fromStore := none, elapsed := 0 }

/-- The wanted source of a SOURCE value (R156): an UNDEFINED plate is taken as BLACK. -/
def State.wantedSource (s : State) (v : Nat) : Nat :=
  match plateOf v with
  | some p => if (s.plate p).state = .undefined then 0 else v
  | none => v

/-- A source change (R157): the table's five rows, in its order. -/
def Tile.change (x : Tile) (new : Nat) (frozen : Bool) : Tile :=
  if x.fields.dissolve = 0 ∨ frozen = true then
    { x with current := new, fromSource := none, elapsed := 0, currentStore := none, fromStore := none }
  else if x.fromSource.isNone ∨ x.fields.dissolve ≤ 2 * x.elapsed then
    { x with current := new, fromSource := some x.current, elapsed := 0, currentStore := none,
             fromStore := x.currentStore }
  else { x with current := new, elapsed := 0, currentStore := none }

/-! ### The fetch unit (R150 to R153) -/

/-- The columns of a tile's crop that lie in a plate's canvas (R150). -/
def State.cropColumns (s : State) (t p : Nat) : Nat := min 128 ((s.plate p).width - (s.tile t).fields.cropX)

/-- The lines of a tile's crop that lie in a plate's canvas, from the crop's top (R150). -/
def State.cropLines (s : State) (t p : Nat) : Nat := min 128 ((s.plate p).height - (s.tile t).fields.cropY)

/-- The frame-memory addresses a fetch of a plate for a tile reads from, one for each line of the crop that lies in the
canvas, top line first: the walk over the descriptors of the image at the plate's position (R145, R150). -/
def State.cropReads (s : State) (t p : Nat) : List Nat :=
  if s.cropColumns t p = 0 then []
  else (List.range (s.cropLines t p)).filterMap fun r =>
    s.pixelAddress p (s.plate p).image ((s.tile t).fields.cropY + r) (s.tile t).fields.cropX

/-- The end of a fetch (R150, R151): its pixels become the tile's store for that source, where the tile still has it. -/
def State.fillStores (s : State) (f : Fetch) : State :=
  let x := s.tile f.tile
  let store : Store := ⟨f.pixels, true⟩
  s.setTile f.tile
    { x with currentStore := if x.current = f.source then some store else x.currentStore,
             fromStore := if x.fromSource = some f.source then some store else x.fromStore }

/-- A fetch of a plate's present image for a tile (R150). -/
def State.newFetch (s : State) (t p : Nat) : Fetch :=
  { tile := t, source := p + 5, reads := s.cropReads t p, columns := s.cropColumns t p, line := 0, pixels := .empty,
    ended := false }

/-- Add a fetch at the end of the list; one with no line to read ends at once (log 24). -/
def State.addFetch (s : State) (t p : Nat) : State :=
  let f := s.newFetch t p
  if f.reads = [] then ({ s with fetches := s.fetches ++ [{ f with ended := true }] }).fillStores f
  else { s with fetches := s.fetches ++ [f] }

/-- The plates a tile needs (R150), current source before from source, one where both are the same. -/
def State.neededPlates (s : State) (t : Nat) : List Nat :=
  let x := s.tile t
  if s.holdsPlace t ∧ (s.link x.fields.link).state = .active then
    ((plateOf x.current).toList ++ ((x.fromSource.filter fun v => v != x.current).bind plateOf).toList).filter
      fun p => (s.plate p).fetched
  else []

/-- The tiles that hold a place, by link and then by place (R150). -/
def State.placedTiles (s : State) : List Nat :=
  (List.range 64).filterMap fun k => s.tileAt (k / 16) (k % 16)

/-- The fetches of every tile that holds a place, in the list's order (R150). -/
def State.addFetches (s : State) : State :=
  s.placedTiles.foldl (fun u t => (u.neededPlates t).foldl (fun u p => u.addFetch t p) u) s

/-- The frame's fetch list (R150), in place of the last one; from here on cuts fetch every plate as it stands (R144). -/
def State.formFetchList (s : State) : State :=
  ({ s with
    fetches := []
    plates := s.plates.mapListed Plate.por fun _ x => { x with cleared := false } }).addFetches

/-- The fetch a cut adds at render complete (R151); a plate that a SOFT_CLEAR has moved since the list was formed waits
for the next list (R144). A cut to a plate that the tile needed at the frame start too, as its from source, adds a second
fetch of that plate, since R157 empties the store that the first one fills (DEDUCED, log 37). -/
def State.fetchForCut (s : State) (t : Nat) : State :=
  let x := s.tile t
  match plateOf x.current with
  | some p =>
    if s.holdsPlace t ∧ (s.link x.fields.link).state = .active ∧ (s.plate p).fetched ∧ (s.plate p).cleared = false then
      s.addFetch t p
    else s
  | none => s

/-- A fetch of a list that a source change has taken from its tile's need and that has not begun (R151). -/
def Fetch.dropped (x : Tile) (t : Nat) (f : Fetch) : Bool :=
  f.tile == t && !f.ended && f.source != x.current && x.fromSource != some f.source

/-- The fetch list without the fetches `drop` names among those that have not begun. The first that has not ended has
begun, since the port serves the list in order (R150). -/
def dropUnbegun (drop : Fetch → Bool) : List Fetch → List Fetch
  | [] => []
  | f :: rest => if f.ended then f :: dropUnbegun drop rest else f :: rest.filter fun g => !drop g

/-- A source change drops the tile's fetches that have not begun and that it no longer needs (R151; log 31). -/
def State.dropFetches (s : State) (t : Nat) : State :=
  { s with fetches := dropUnbegun (Fetch.dropped (s.tile t) t) s.fetches }

/-- A frame start abandons what has not ended (R151): the list is emptied and no store was filled in this frame. -/
def State.abandonFetches (s : State) : State :=
  { s with
    fetches := []
    tiles := s.tiles.mapListed Tile.por fun _ x =>
      { x with currentStore := x.currentStore.map fun c => { c with thisFrame := false },
               fromStore := x.fromStore.map fun c => { c with thisFrame := false } } }

/-- Write the pixel words of one line, from column 0; a word the completion does not bring reads 0 (log 11). -/
def writeLine (img : Image) (line columns : Nat) (words : List Word) : Image :=
  (List.range columns).foldl (fun m c => m.set Image.black (line * 128 + c) (wordPixel (words.getD c 0))) img

/-- The fetch the port is reading for: the first that has not ended (R150). -/
def currentFetch : List Fetch → Option (Fetch × (Fetch → List Fetch))
  | [] => none
  | f :: rest =>
    if f.ended then (currentFetch rest).map fun r => (r.1, fun g => f :: r.2 g)
    else some (f, fun g => g :: rest)

/-- The read that the frame-memory port is making: the byte address it starts at and the pixel words it reads (R150;
log 11). -/
def State.portRead (s : State) : Option (Nat × Nat) :=
  (currentFetch s.fetches).bind fun r => r.1.reads.head?.map fun a => (a, r.1.columns)

/-- The completion of the read of one line (R150): its pixels are in, and the fetch's last line ends it. -/
def State.completeRead (s : State) (words : List Word) : State :=
  match currentFetch s.fetches with
  | none => s
  | some (f, put) =>
    let f := { f with reads := f.reads.tail, line := f.line + 1,
                      pixels := writeLine f.pixels f.line f.columns words }
    if f.reads ≠ [] then { s with fetches := put f }
    else ({ s with fetches := put { f with ended := true } }).fillStores f

/-- A read error (R153): the plate of the fetch is in FAULT, and its fetches that have not ended leave the list. So an
abandoned fetch makes no later packet late, also none that begins after a SOFT_CLEAR has taken the plate out of FAULT in
the same frame, where R152 (an abandoned fetch is late) and R153 (a packet that uses a retained crop is not) leave it open:
DESIGN CHOICE, log 42. -/
def State.failRead (s : State) : State :=
  match currentFetch s.fetches with
  | none => s
  | some (f, _) =>
    let s := { s with fetches := s.fetches.filter fun g => g.ended || g.source != f.source }
    match plateOf f.source with
    | none => s
    | some p => (s.setPlate p { s.plate p with state := .fault }).raise .plateFault

/-! ### The pixel path (R159) -/

/-- The mix of a component (R159, step 1). -/
def mixComponent (cur frm e D : Nat) (dissolving : Bool) : Nat := if dissolving then mixLevel frm cur e D else cur

/-- The output component (R159, steps 2 and 3). -/
def outputComponent (mix gain trim : Nat) : BitVec 10 := BitVec.ofNat 10 (levelProduct mix (levelProduct gain trim))

/-- The store a set's source value reads: the tile's store for that value, first in the role the set gives it, and the
store of that role where the tile no longer has the value (log 16). -/
def Tile.storeFor (x : Tile) (value : Nat) (isCurrent : Bool) : Option Store :=
  if isCurrent then
    if x.fromSource = some value ∧ x.current ≠ value then x.fromStore else x.currentStore
  else if x.current = value ∧ x.fromSource ≠ some value then x.currentStore else x.fromStore

/-- The pixel of a source's picture at a line and column of the tile, through the crop (R142, R154). A packet of an
earlier frame's render (`past`) reads the tile's store of a plate whatever has become of the plate (R152). -/
def State.picture (s : State) (past : Bool) (v : TileSet) (value : Nat) (isCurrent : Bool) (line column : Nat) : Pixel :=
  if value = 0 then Pixel.black
  else if value ≤ 4 then
    let x := v.cropX + column
    let y := v.cropY + line
    if (s.input (value - 1)).shown ∧ x < 1920 ∧ y < 1080 then
      ⟨Config.vinComponent (value - 1) s.draws 0 x y, Config.vinComponent (value - 1) s.draws 1 x y,
        Config.vinComponent (value - 1) s.draws 2 x y⟩
    else Pixel.black
  else
    let p := s.plate (value - 5)
    if past = false ∧ p.state = .ended ∧ p.endMode = .black then Pixel.black
    else match (s.tile v.tile).storeFor value isCurrent with
      | none => Pixel.black
      | some c => c.image.get Image.black (line * 128 + column)

/-- The output pixel of a packet (R159). -/
def State.outputPixel (s : State) (past : Bool) (v : TileSet) (line column : Nat) : Pixel :=
  let cur := s.picture past v v.current true line column
  let frm := match v.fromSource with
    | some f => s.picture past v f false line column
    | none => Pixel.black
  let component (c f : BitVec 10) (trim : Nat) : BitVec 10 :=
    outputComponent (mixComponent c.toNat f.toNat v.elapsed v.dissolve v.fromSource.isSome) v.params.gain trim
  ⟨component cur.red frm.red v.params.red, component cur.green frm.green v.params.green,
    component cur.blue frm.blue v.params.blue⟩

/-- The 128 × 128 pixels of a packet (R159). -/
def State.outputImage (s : State) (past : Bool) (v : TileSet) : Image :=
  Table.ofFn Image.black 16384 fun k => s.outputPixel past v (k / 128) (k % 128)

/-- The plate sources for which a fetch of the tile is late to a packet that begins now (R152): the listed ones that have
not ended, or, while the running frame start's list is still to be formed, the ones the tile needs, none of which has
begun (log 16). A fetch that a READ_ERROR has abandoned is on the list no more (log 42). -/
def State.lateSources (s : State) (t : Nat) : List Nat :=
  if s.work.phase = .applying ∨ s.work.phase = .counting then (s.neededPlates t).map (· + 5)
  else ((s.fetches.filter fun f => f.tile == t && !f.ended).map Fetch.source).eraseDups

/-- Count a late packet against a plate (R152). -/
def State.countLatePlate (s : State) (value : Nat) : State :=
  match plateOf value with
  | some p => s.setPlate p { s.plate p with late := saturate 65535 (s.plate p).late }
  | none => s

/-- The beginning of an IMAGE packet (R152, R159): a late one sends the last sent image and counts, another sends the
pixel path's image, which becomes the last sent image. R159 forms the pixels while the packet is sent; every pixel and
every picture is taken here, at the packet's beginning: DESIGN CHOICE, log 32. -/
def State.beginImage (s : State) (past : Bool) (v : TileSet) : State :=
  let late := s.lateSources v.tile
  if late ≠ [] then
    let s := s.raise .fetchLate
    let s := s.setTile v.tile { s.tile v.tile with fetchLate := saturate 65535 (s.tile v.tile).fetchLate }
    s.each State.countLatePlate late
  else
    let s' := s.setTile v.tile { s.tile v.tile with lastSent := s.outputImage past v }
    { s' with draws := s'.draws + 1 }

/-! ### Link frames and packets (R160, R161) -/

/-- What a link frame sends at a place: the tile set of an ACTIVE frame's place, if a tile holds it. -/
def LinkFrame.setAt (f : LinkFrame) (place : Nat) : Option TileSet :=
  match f.content with
  | .active places => (places.getD place none)
  | .sleep => none
  | .black => none

/-- Packets of a link frame (R160). -/
def LinkFrame.packets (f : LinkFrame) : Nat :=
  match f.content with
  | .active _ => 16
  | .sleep => 1
  | .black => 1

/-- The 16 header bytes of the packet at a place (11.8). -/
def LinkFrame.header (f : LinkFrame) (link place : Nat) : List Byte :=
  let isImage := (f.setAt place).isSome
  let content := match f.content with
    | .active _ => if isImage then 1 else 2
    | .black => 2
    | .sleep => 3
  let size := if isImage then 128 else 0
  let head := u8 content ++ u8 link ++
    u8 (match f.content with | .active _ => place | .black => 255 | .sleep => 255) ++
    u8 (match f.setAt place with | some v => v.tile | none => 255) ++ u8 f.sequence ++ be32 f.frame ++
    mark f.timed ++ u16 size ++ u16 size
  head ++ u16 ((head.map BitVec.toNat).sum % 65536)

/-- The pixel words of an IMAGE packet: the tile's last sent image, once the packet has begun (R159, 11.8). -/
def State.imageBytes (s : State) (t : Nat) : List Byte :=
  (List.range 16384).flatMap fun k => be32 (pixelWord ((s.tile t).lastSent.get Image.black k))

/-- Begin the packet at a place of a link frame (R160). -/
def State.beginPacket (s : State) (f : LinkFrame) (place : Nat) : State :=
  match f.setAt place with
  | some v => s.beginImage f.past v
  | none => s

/-- Begin a link frame (R161): SENDING, at its first packet. -/
def State.beginLinkFrame (s : State) (l : Nat) (f : LinkFrame) : State :=
  (s.setLink l { s.link l with inFlight := some ⟨f, 0⟩ }).beginPacket f 0

/-- A link takes the set of its render (R160, R161). -/
def State.linkTakes (s : State) (l : Nat) (content : LinkContent) : State :=
  let x := s.link l
  let f : LinkFrame := ⟨(x.sequence + 1) % 256, s.timer.counter, s.timer.timedFromRef, content, false⟩
  match x.inFlight with
  | none => (s.setLink l { x with sequence := f.sequence }).beginLinkFrame l f
  | some _ =>
    (s.setLink l { x with sequence := f.sequence, waiting := some f, slips := saturate 65535 x.slips,
                          drops := if x.waiting.isSome then saturate 65535 x.drops else x.drops }).raise .outputSlip

/-- The end of the packet being sent on a link (R160, R161): the next packet begins, or the frame ends and a waiting
set begins. -/
def State.endPacket (s : State) (l : Nat) : State :=
  let x := s.link l
  match x.inFlight with
  | none => s
  | some f =>
    if f.place + 1 < f.frame.packets then
      (s.setLink l { x with inFlight := some ⟨f.frame, f.place + 1⟩ }).beginPacket f.frame (f.place + 1)
    else match x.waiting with
      | some w => (s.setLink l { x with waiting := none }).beginLinkFrame l w
      | none => s.setLink l { x with inFlight := none }

/-- The set an ACTIVE frame holds for a place (R160; log 16). -/
def State.tileSet (s : State) (t : Nat) : TileSet :=
  let x := s.tile t
  { tile := t, params := x.params, current := x.current, fromSource := x.fromSource, elapsed := x.elapsed,
    dissolve := x.fields.dissolve, cropX := x.fields.cropX, cropY := x.fields.cropY }

/-- The sixteen places of a link's ACTIVE frame (R160). -/
def State.activeContent (s : State) (l : Nat) : LinkContent :=
  .active ((List.range 16).map fun place => (s.tileAt l place).map s.tileSet)

/-! ### Link states (R162, R163) -/

/-- Some enabled tile of a link, shadowed or not, has a GAIN that is not 0 (R162, R163). -/
def State.linkLit (s : State) (l : Nat) : Bool :=
  (List.range 64).any fun t =>
    (s.tile t).fields.enabled && (s.tile t).fields.link == l && (s.tile t).params.gain != 0

/-- The settling of a link at render complete and the frame it takes (R160, R162, R163). A link whose idle count has
reached its idle period is left to LINK_IDLE_EXPIRY (log 4). -/
def State.settleLink (s : State) (l : Nat) : State :=
  let x := s.link l
  match x.state with
  | .standby =>
    if s.linkLit l then (s.setLink l { x with state := .waking, wakeCount := 0 }).linkTakes l .black else s
  | .waking => s.linkTakes l .black
  | .active =>
    let idle := if s.linkLit l then 0 else saturate 65535 x.idleCount
    let s := s.setLink l { x with idleCount := idle }
    if x.idlePeriod ≠ 0 ∧ x.idlePeriod ≤ idle then
      { s with work := { s.work with idleDue := s.work.idleDue ++ [l] } }
    else s.linkTakes l (s.activeContent l)

/-- The rest of a link whose idle count has reached its idle period (R163): STANDBY, wake count 0, one SLEEP. -/
def State.restLink (s : State) (l : Nat) : State :=
  (s.setLink l { s.link l with state := .standby, wakeCount := 0 }).linkTakes l .sleep

/-- The wake count of one link at a frame start (R162). A count that reaches the wake delay is left to
LINK_WAKE_COMPLETE (log 4). -/
def State.countWake (s : State) (l : Nat) : State :=
  let x := s.link l
  if x.state ≠ .waking then s
  else if x.wakeCount + 1 < x.wakeDelay then s.setLink l { x with wakeCount := x.wakeCount + 1 }
  else { s with work := { s.work with wakesDue := s.work.wakesDue ++ [l] } }

/-- A link's wake ends (R162): ACTIVE with idle count 0. -/
def State.completeWake (s : State) (l : Nat) : State :=
  let x := s.link l
  if x.state ≠ .waking then s
  else s.setLink l { x with state := .active, wakeCount := x.wakeCount + 1, idleCount := 0 }

/-! ### Render complete on a tile (R156, R157) -/

/-- A tile takes its parameters and handles its source change (R156, R157, R151). -/
def State.tileTakes (s : State) (t : Nat) (v : TileParams) (frozen : Bool) : State :=
  let x := { s.tile t with params := v, frozen := frozen }
  let wanted := s.wantedSource v.source
  if wanted = x.current then s.setTile t x
  else
    let x' := x.change wanted frozen
    let s := (s.setTile t x').dropFetches t
    if x'.fromSource.isNone then s.fetchForCut t else s

/-! ### Reset low (R193) -/

/-- A frame start makes a link frame that is in flight or waiting a frame of an earlier render (R152). -/
def Link.passFrame (x : Link) : Link :=
  { x with inFlight := x.inFlight.map fun f => { f with frame := { f.frame with past := true } },
           waiting := x.waiting.map fun f => { f with past := true } }

/-- The link idle at once: what it was sending is abandoned (R160, R193). -/
def Link.abandon (x : Link) : Link := { x with inFlight := none, waiting := none }

/-! ### SOFT_CLEAR (R142, R154, R160) -/

def Input.softClear (x : Input) : Input := { x with losses := 0 }
def Tile.softClear (x : Tile) : Tile := { x with fromSource := none, elapsed := 0, fetchLate := 0 }
def Link.softClear (x : Link) : Link := { x with slips := 0, drops := 0 }

/-! ### SET_LINK and the reads (R164, R165) -/

/-- The content of a frame in flight: 1 IMAGE for an ACTIVE frame, 2 BLACK, 3 SLEEP (11.8; log 10). -/
def LinkContent.code : LinkContent → Nat
  | .active _ => 1
  | .black => 2
  | .sleep => 3

/-- A link's record (R160), as SET_LINK and READ_LINK report it. In IDLE the fields of the frame in flight are sent as
absent, and behind the waiting mark the waiting sequence has a presence byte of its own (DESIGN CHOICE, log 10). -/
def Link.bytes (x : Link) : List Byte :=
  u8 x.state.code ++ u8 x.wakeDelay ++ u16 x.idlePeriod ++ u8 x.wakeCount ++ u16 x.idleCount ++ u8 x.sequence ++
    u8 (if x.inFlight.isSome then 1 else 0) ++ opt8 (x.inFlight.map fun f => f.frame.content.code) ++
    present8 (x.inFlight.map fun f => f.frame.sequence) ++ mark x.waiting.isSome ++
    present8 (x.waiting.map LinkFrame.sequence) ++ u16 x.slips ++ u16 x.drops

/-- SET_LINK (R164). -/
def setLinkOwn (h : Header) (link wake : Byte) (idle : Half) (s : State) : Verdict :=
  if !h.configures then .refuse .notPermitted
  else
    let l := link.toNat
    if l > 3 ∨ wake.toNat < 1 ∨ wake.toNat > 63 then .refuse .range
    else
      let x := { s.link l with wakeDelay := wake.toNat, idlePeriod := idle.toNat }
      .accept (s.setLink l x) false x.bytes

/-- Empty 0, fetched this frame 1, retained 2. -/
def fillCode : Option Store → Nat
  | none => 0
  | some c => if c.thisFrame then 1 else 2

/-- A tile as READ_TILE reports it (R165). Before the first render complete the render's frame alone is none, and the
five parameters are sent at their POR values (DEDUCED, log 27). -/
def State.tileBytes (s : State) (t : Nat) : List Byte :=
  let x := s.tile t
  mark x.fields.enabled ++ u8 x.fields.link ++ u8 x.fields.place ++ u16 x.fields.cropX ++ u16 x.fields.cropY ++
    u8 x.fields.dissolve ++ mark (s.shadowed t) ++ u8 x.current ++ opt8 x.fromSource ++ u8 x.elapsed ++
    u16 x.params.gain ++ u16 x.params.red ++ u16 x.params.green ++ u16 x.params.blue ++ u8 x.params.source ++
    present32 s.renderFrame ++ mark x.frozen ++ u8 (fillCode x.currentStore) ++ u8 (fillCode x.fromStore) ++
    u16 x.fetchLate

/-- READ_TILE (R165). -/
def readTileOwn (h : Header) (tile clear : Byte) (s : State) : Verdict :=
  match onOff clear with
  | none => .refuse .range
  | some c =>
    let t := tile.toNat
    if t > 63 then .refuse .range
    else if c ∧ !h.configures then .refuse .notPermitted
    else .accept (if c then s.setTile t { s.tile t with fetchLate := 0 } else s) false (s.tileBytes t)

/-- READ_LINK (R165). -/
def readLinkOwn (h : Header) (link clear : Byte) (s : State) : Verdict :=
  match onOff clear with
  | none => .refuse .range
  | some c =>
    let l := link.toNat
    if l > 3 then .refuse .range
    else if c ∧ !h.configures then .refuse .notPermitted
    else .accept (if c then s.setLink l { s.link l with slips := 0, drops := 0 } else s) false (s.link l).bytes

end Sys2Proof.Machine
end

