-- ==== Sys2Proof/Machine/Render.lean ====
section
/-! DEFINITION. The render pass (spec chapter 6): the eleven stages of a point, the publication of a pass's results, and
the values handed to lamp lines and tiles. -/

namespace Sys2Proof.Machine

/-! ### What covers a point (stage 1) -/

/-- A contribution as a point meets it: its effective level in FADING_IN and HELD, its release level in FADING_OUT. -/
structure Cover where
  handle : Handle
  priority : Nat
  sequence : Word
  level : Nat
  remaining : Nat
  length : Nat
deriving DecidableEq, Repr

/-- A slot's contribution as point p meets it in FADING_IN or HELD (R101), if it covers p. -/
def State.liveCover (s : State) (p k : Nat) : Option Cover :=
  match (s.slot k).record with
  | none => none
  | some c =>
    if c.phase = .fadingIn ∨ c.phase = .held then
      (s.positionOf c.selector p).map fun i =>
        { handle := s.handleOf k, priority := c.priority, sequence := c.sequence.getD 0,
          level := s.effectiveLevel c i p, remaining := 0, length := 1 }
    else none

/-- A slot's contribution as point p meets it in FADING_OUT (R103), if it covers p. -/
def State.fadingCover (s : State) (p k : Nat) : Option Cover :=
  match (s.slot k).record with
  | none => none
  | some c =>
    if c.phase = .fadingOut then
      (s.positionOf c.selector p).map fun i =>
        { handle := s.handleOf k, priority := c.priority, sequence := c.sequence.getD 0, level := s.word c.chain i,
          remaining := c.remaining, length := c.fadeOut }
    else none

/-- The slots that hold a record, in slot order. -/
def State.occupiedSlots (s : State) : List Nat := s.slotsWhere fun _ => true

/-! ### Base and band (stage 2) -/

/-- The member that decides the base of two (R102): the higher priority; in one band the greater level for INTENSITY
and then the greater sequence, and the greater sequence for the other kinds. -/
def betterCover (kind : Kind) (a b : Cover) : Cover :=
  if b.priority < a.priority then a
  else if a.priority < b.priority then b
  else if kind = .intensity ∧ b.level < a.level then a
  else if kind = .intensity ∧ a.level < b.level then b
  else if isBefore a.sequence b.sequence then b
  else a

/-- The member of a set that decides the base (R102), or none of an empty set. -/
def topCover (kind : Kind) : List Cover → Option Cover
  | [] => none
  | c :: cs => some (cs.foldl (betterCover kind) c)

/-! ### Fading-out mix (stages 3 and 4) -/

/-- Insert by ascending sequence (R103; log 25). -/
def insertBySequence (c : Cover) : List Cover → List Cover
  | [] => [c]
  | d :: ds => if isBefore c.sequence d.sequence then c :: d :: ds else d :: insertBySequence c ds

def bySequence : List Cover → List Cover
  | [] => []
  | c :: cs => insertBySequence c (bySequence cs)

/-- B and the winner as a stage leaves them. -/
structure Merge where
  level : Nat
  winner : Option Handle
deriving DecidableEq, Repr

/-- The level B would take from a fading-out contribution (R103, R104): the mix towards B, or the release level as it
stands for a SOURCE point. -/
def fadeValue (kind : Kind) (b : Nat) (c : Cover) : Nat :=
  if kind = .source then c.level else mixLevel b c.level c.remaining c.length

/-- B after one fading-out contribution (R103, R104); `top` is the member that decided the base. -/
def fadedLevel (kind : Kind) (top : Option Cover) (b : Nat) (c : Cover) : Nat :=
  let m := fadeValue kind b c
  match top with
  | none => m
  | some t =>
    if t.priority < c.priority then m
    else if c.priority < t.priority then b
    else if kind = .intensity then max b m
    else if isBefore t.sequence c.sequence then m
    else b

/-- One step of stage 3, with the winner of stage 4 (R103, R104, R106). -/
def fadeStep (kind : Kind) (top : Option Cover) (x : Merge) (c : Cover) : Merge :=
  let b := fadedLevel kind top x.level c
  if b = x.level then x else ⟨b, some c.handle⟩

/-- Stages 2 to 4 (R102 to R106). -/
def mergeCovers (kind : Kind) (home : Nat) (live fading : List Cover) : Merge :=
  let top := topCover kind live
  let base : Merge := match top with
    | none => ⟨home, none⟩
    | some c => ⟨c.level, some c.handle⟩
  (bySequence fading).foldl (fadeStep kind top) base

/-- The merged level and winner of a point (stages 1 to 4). -/
def State.merge (s : State) (p : Nat) : Merge :=
  let f := (s.point p).fields
  mergeCovers f.kind f.home (s.occupiedSlots.filterMap (s.liveCover p)) (s.occupiedSlots.filterMap (s.fadingCover p))

/-! ### Overrides and shaping (stages 5 to 10) -/

/-- Stage 5 (R107). -/
def forceLevel (f : Option Force) (v : Nat) : Nat :=
  match f with
  | none => v
  | some ⟨.park, x, _⟩ => x
  | some ⟨.cap, x, _⟩ => min v x
  | some ⟨.floor, x, _⟩ => max v x

/-- Stage 6 (R108). -/
def State.masterLevel (s : State) (f : PointFields) (v : Nat) : Nat :=
  match f.kind, f.master with
  | .intensity, some m => levelProduct v (s.master m).level
  | _, _ => v

/-- Stage 7 (R109). -/
def State.workLightLevel (s : State) (f : PointFields) (v : Nat) : Nat :=
  if s.wltSample && f.member && f.kind != .source then max v s.workLight else v

/-- Stage 8 (R110): a curve's output. -/
def curveLevel (knots : List Nat) (v : Nat) : Nat :=
  let k := min (v / 4096) 15
  mixLevel (knots.getD k 0) (knots.getD (k + 1) 0) (v - 4096 * k) (if k = 15 then 4095 else 4096)

/-- Stage 9 (R112). -/
def offsetLevel (offset : Int) (v : Nat) : Nat := clampLevel ((v : Int) + offset)

/-- Stages 6 to 9 in order; a SOURCE point takes none of them (R116). -/
def State.shapedLevel (s : State) (f : PointFields) (v : Nat) : Nat :=
  if f.kind = .source then v
  else offsetLevel f.offset (curveLevel (s.curve f.curve) (s.workLightLevel f (s.masterLevel f v)))

/-- Stage 10 (R113, R114): the results of a point from its merge and its computed output. -/
def holdLevel (prev : Result) (retake frozen : Bool) (m : Merge) (v : Nat) : Result :=
  if !frozen then { merged := m.level, output := v, winner := m.winner, frozen := false, held := prev.held }
  else if prev.frozen && !retake then
    { merged := m.level, output := prev.held, winner := m.winner, frozen := true, held := prev.held }
  else { merged := m.level, output := v, winner := m.winner, frozen := true, held := v }

/-- The computed output of a point (stages 1 to 9). -/
def State.computedOutput (s : State) (p : Nat) : Nat :=
  s.shapedLevel (s.point p).fields (forceLevel (s.force p) (s.merge p).level)

/-- The five result fields of a point in a render (stages 1 to 10). -/
def State.renderPoint (s : State) (p : Nat) : Result :=
  holdLevel (s.result p) (s.point p).retake (s.frozenNow p) (s.merge p) (s.computedOutput p)

/-- The publication of a pass (R96, R98): every point's results, the render's number and its WLT sample. -/
def State.publish (s : State) : State :=
  { s with
    results := Table.ofFn Result.por 2560 s.renderPoint
    renderFrame := some s.timer.counter
    wltRendered := s.wltSample
    points := s.points.mapListed Point.por fun _ x => { x with retake := false } }

/-! ### Conversion (stage 11; R22, R115) -/

/-- The value of a lamp slot. -/
def State.lampValue (s : State) (l j : Nat) : Nat :=
  match s.occupant (lampOutput l j) with
  | none => 0
  | some p =>
    let v := (s.result p).output
    match (s.point p).binding with
    | .lamp _ first 2 => if j = first then v / 256 else v % 256
    | .lamp _ _ _ => levelProduct v 255
    | .unbound => 0
    | .tile _ _ => 0

/-- The 384 slot values of a line. -/
def State.lineValues (s : State) (l : Nat) : Table Nat := Table.ofFn SlotValue.por 384 (s.lampValue l)

/-- A tile parameter, or what an output no point holds reads. -/
def State.tileParam (s : State) (t : Nat) (q : Param) (empty : Nat) : Nat :=
  match s.occupant (tileOutput t q) with
  | none => empty
  | some p => (s.result p).output

/-- The five parameters of a tile. -/
def State.tileParams (s : State) (t : Nat) : TileParams :=
  { gain := s.tileParam t .gain 65535, red := s.tileParam t .red 65535, green := s.tileParam t .green 65535,
    blue := s.tileParam t .blue 65535, source := s.tileParam t .source 0 }

/-- The frozen flag of the point that supplies a tile's SOURCE, off where none does (R156). -/
def State.tileFrozen (s : State) (t : Nat) : Bool :=
  match s.occupant (tileOutput t .source) with
  | none => false
  | some p => (s.result p).frozen

/-- What lamp lines, tiles and links do at render complete, in the order of spec 9 and 9.8. -/
def State.handOver (s : State) : State :=
  let s := s.each (fun u l => u.lineTakes l (s.lineValues l)) (List.range 8)
  let s := s.each (fun u t => u.tileTakes t (s.tileParams t) (s.tileFrozen t)) (List.range 64)
  s.each State.settleLink (List.range 4)

end Sys2Proof.Machine
end

