-- ==== Sys2Proof/Machine/Sources.lean ====
section
/-! DEFINITION. Sources (spec chapter 3): the limits, liveness and its loss, and the reads. -/

namespace Sys2Proof.Machine

/-- Load a source's liveness counter (R41, R49). -/
def State.loadLiveness (s : State) (n reload : Nat) : State := s.setSource n { s.source n with counter := reload }

/-- The reload of a well-formed command frame (R49): the counter, and the return of a LOST source to LIVE with
SOURCE_BACK. -/
def State.reloadSource (s : State) (n : Nat) : State :=
  let lost := (s.source n).state = .lost
  let s := s.loadLiveness n (s.source n).reload
  if lost then (s.setSource n { s.source n with state := .live }).raise .sourceBack else s

/-- A source's record in the order R52 lists it. -/
def Source.bytes (x : Source) : List Byte :=
  u8 x.priority ++ u8 x.ceiling ++ u8 x.quota ++ u8 x.live ++ mark x.mayForce ++ u16 x.lossFade ++ u8 x.reload ++
    u8 x.counter ++ u8 x.state.code ++ u16 x.applyFails

/-- The conditions of R42 for a target of SAFETY. -/
def safetyProtected (h : Header) (b : SetSourceBody) (force : Bool) : Bool :=
  b.target == 0 && (h.src != 0 || b.ceiling.toNat != 15 || !force || b.reload != 0)

/-- SET_SOURCE (R41). -/
def setSourceOwn (h : Header) (b : SetSourceBody) (s : State) : Verdict :=
  if !h.configures then .refuse .notPermitted
  else match onOff b.mayForce with
    | none => .refuse .range
    | some force =>
      let n := b.target.toNat
      if n > 4 ∨ b.priority.toNat > 15 ∨ b.ceiling.toNat > 15 ∨ b.quota.toNat > 192 ∨
          b.priority.toNat > b.ceiling.toNat then .refuse .range
      else if safetyProtected h b force then .refuse .notPermitted
      else if b.quota.toNat < (s.source n).live then .refuse .inUse
      else if !(s.slotsWhere fun c => c.owner == n && b.ceiling.toNat < c.priority).isEmpty then .refuse .inUse
      else
        let s := s.setSource n
          { s.source n with priority := b.priority.toNat, ceiling := b.ceiling.toNat, quota := b.quota.toNat,
                            mayForce := force, lossFade := b.lossFade.toNat, reload := b.reload.toNat }
        let s := s.loadLiveness n b.reload.toNat
        .accept s false (s.source n).bytes

/-- SET_SUPERVISION (R45). -/
def setSupervisionOwn (h : Header) (interval : Byte) (s : State) : Verdict :=
  if !h.configures then .refuse .notPermitted
  else if interval = 0 then .refuse .range
  else .accept { s with interval := interval.toNat } false (u8 interval.toNat)

/-- TOUCH (R51): the reload is the frame's own; `before` is the state before it. -/
def touchOwn (h : Header) (before s : State) : Verdict :=
  .accept s false
    (mark ((before.source h.src).state == .lost) ++ u8 (s.source h.src).counter ++ be32 s.timer.counter)

/-- READ_SOURCE (R52). -/
def readSourceOwn (h : Header) (target clear : Byte) (s : State) : Verdict :=
  let n := target.toNat
  match onOff clear with
  | none => .refuse .range
  | some c =>
    if n > 4 then .refuse .range
    else if c ∧ h.src ≠ 0 ∧ h.src ≠ n then .refuse .notPermitted
    else
      let fields := (s.source n).bytes ++ u8 s.interval
      .accept (if c then s.setSource n { s.source n with applyFails := 0 } else s) false fields

/-! ### Supervision ticks and loss (R46, R47) -/

/-- The tick of a frame start on one source (R46): a counter above 1 falls by one; a counter of 1 is left to the step
SOURCE_LOST, which takes it to 0 (log 4). -/
def State.tickSource (s : State) (n : Nat) : State :=
  let x := s.source n
  if x.reload ≠ 0 ∧ x.state = .live then
    if x.counter = 1 then { s with work := { s.work with lossDue := s.work.lossDue ++ [n] } }
    else s.setSource n { x with counter := x.counter - 1 }
  else s

/-- The contributions a loss releases (R47). -/
def State.lossReleases (s : State) (n : Nat) : List Nat :=
  s.slotsWhere fun c => c.owner == n && (c.phase == .fadingIn || c.phase == .held) && c.policy == .release

/-- The loss of a source whose tick is outstanding (R46, R47): LOST with counter 0, SOURCE_LOST, and the release of its
RELEASE-policy contributions with its loss fade, in slot order (log 14). -/
def State.loseSource (s : State) (n : Nat) : State :=
  let s := { s with work := { s.work with lossDue := s.work.lossDue.filter (· != n) } }
  let s := s.setSource n { s.source n with counter := 0, state := .lost }
  let s := s.raise .sourceLost
  s.each (fun t k => t.release k (s.source n).lossFade) (s.lossReleases n)

/-- The outstanding tick of a source is taken (R46, R50): from a counter of 1 it is the loss; from a counter that a frame
has loaded since the tick fell due, the frame was "taken first", and the counter falls by one (log 21). -/
def State.takeTick (s : State) (n : Nat) : State :=
  let x := s.source n
  if x.counter = 1 then s.loseSource n
  else
    { s.setSource n { x with counter := x.counter - 1 } with
      work := { s.work with lossDue := s.work.lossDue.filter (· != n) } }

/-- The outstanding tick of a source whose counter a frame has loaded since `old` (R50) is taken now; a counter of 1
leaves the tick to SOURCE_LOST all the same (log 21). -/
def State.takeLoadedTick (old s : State) (n : Nat) : State :=
  if n ∈ s.work.lossDue ∧ (s.source n).counter ≠ (old.source n).counter ∧ (s.source n).counter ≠ 1 then s.takeTick n
  else s

/-- The outstanding ticks of the sources a frame has loaded. -/
def State.takeLoadedTicks (old s : State) : State := s.each (State.takeLoadedTick old) (List.range 5)

end Sys2Proof.Machine
end

