-- ==== Sys2Proof/Machine/Frame.lean ====
section
/-! DEFINITION. The work of a frame start (spec 1.10, 5.3, 6.1 and chapter 9): application of the due set, losses, the
counts, the beginning and the completion of the render, SOFT_CLEAR's record clear, and the frame start itself. The
table's rows take this work piece by piece; `State.settle` takes whatever is left of it (log 4). -/

namespace Sys2Proof.Machine

/-! ### Application (R85) -/

/-- The application of one entry by its owning block (R80). -/
def State.applyEntry (s : State) (e : Entry) : State :=
  match e.body with
  | .take h => applyTake s e h
  | .release a fade => applyRelease s e a fade
  | .releaseSource target fade => applyReleaseSource s target fade
  | .pause a => applyPaused s e a true
  | .resume a => applyPaused s e a false
  | .setPoint p f => applySetPoint s e p f
  | .bindPoint p b => applyBindPoint s e p b
  | .loadCurve c knots => applyLoadCurve s c knots
  | .forceSet x m v => applyForceSet s e x m v
  | .forceClear x => applyForceClear s e x
  | .freeze g => applyFreeze s e g
  | .thaw g => applyThaw s e g
  | .masterSet m target fade => applyMasterSet s m target fade
  | .setWorklightLevel v => applySetWorklightLevel s v
  | .platePlay p => applyPlatePlay s e p
  | .plateStop p => applyPlateStop s e p
  | .setTile t f => applySetTile s t f

/-- The next due entry leaves the queue and is applied (R85). -/
def State.applyNext (s : State) : State :=
  match takeFirstDue s.queue with
  | none => s
  | some (e, rest) => ({ s with queue := rest }).applyEntry e

/-- Apply due entries in arrival order, at most `n` of them. -/
def State.applyDue (s : State) : Nat → State
  | 0 => s
  | n + 1 => s.applyNext.applyDue n

/-- Whether a due entry of a kind waits. -/
def State.hasDue (s : State) (k : EntryKind) : Bool := s.queue.any fun e => e.due && e.body.kind == k

/-- Apply due entries in arrival order up to and including the first of a kind, as long as one of that kind waits; at
most `n` of them. -/
def State.applyThrough (s : State) (k : EntryKind) : Nat → State
  | 0 => s
  | n + 1 =>
    if !s.hasDue k then s
    else match takeFirstDue s.queue with
      | none => s
      | some (e, rest) =>
        let s' := ({ s with queue := rest }).applyEntry e
        if e.body.kind = k then s' else s'.applyThrough k n

/-! ### Counts (R72, R129, R149, R158, R162) -/

def State.noneDue (s : State) : Bool := !s.queue.any Entry.due

/-- The counts of a frame start, once its application has ended and its losses are taken. -/
def State.beginCounting (s : State) : State :=
  let s := s.setWork { s.work with phase := .counting }
  let s := s.each State.countFade (List.range 192)
  let s := s.each State.countMaster (List.range 4)
  let s := s.each State.countPlate (List.range 8)
  let s := s.each State.countDissolve (List.range 64)
  s.each State.countWake (List.range 4)

/-- No count of the frame start is left to end. -/
def Work.counted (w : Work) : Bool :=
  w.fadesDue.isEmpty && w.mastersDue.isEmpty && w.platesDue.isEmpty && w.dissolvesDue.isEmpty && w.wakesDue.isEmpty

/-- The beginning of the render pass: inputs sampled, the fetch list formed, WLT sampled (R97, R130, R142, R150). -/
def State.beginRender (s : State) : State :=
  let s := s.each State.sampleInput (List.range 4)
  let s := s.formFetchList
  { s with wltSample := s.wltPin, work := { s.work with phase := .rendering } }

/-- The counts begin when the application has ended and no loss is outstanding (R96). -/
def State.tryCount (s : State) : State :=
  if s.work.phase = .applying ∧ s.noneDue = true ∧ s.work.lossDue = [] then s.beginCounting else s

/-- The render begins when the counts have ended (R96). -/
def State.tryRender (s : State) : State :=
  if s.work.phase = .counting ∧ s.work.counted = true then s.beginRender else s

/-- Go on with the frame start's work as far as nothing waits for a step of its own. -/
def State.advance (s : State) : State := s.tryCount.tryRender

/-- Go on after a frame (R50, R96): the outstanding ticks of the sources it has loaded are taken, and where something of
the frame start's work has gone, the rest goes on. -/
def State.resume (old new : State) : State :=
  let new := State.takeLoadedTicks old new
  if new.work.lossDue.length < old.work.lossDue.length ∨
      (new.queue.filter Entry.due).length < (old.queue.filter Entry.due).length then
    new.advance
  else new

/-! ### SOFT_CLEAR's record clear (R194, R97) -/

/-- A slot under SOFT_CLEAR: FREE, its generation raised where it was not (R54). -/
def Slot.softClear (x : Slot) : Slot := if x.record.isSome then ⟨(x.gen + 1) % 256, none⟩ else x

/-- The records the render reads, the Change Queue and the live counts, cleared together (R194, R79, R95, R118). -/
def State.clearRecords (s : State) : State :=
  { s with
    slots := s.slots.mapListed Slot.por fun _ x => x.softClear
    names := .empty
    poolFree := List.range 1024
    sequence := 0
    sources := s.sources.mapListed Source.por fun _ x => { x with live := 0 }
    queue := []
    arrival := 0
    lastFailure := none
    forces := .empty
    freezes := .empty
    masters := .empty
    softClear := .cleared
    work := { s.work with fadesDue := [], mastersDue := [] } }

/-- The source records at the beginning of a SOFT_CLEAR (R194, R44): LIVE, the counter at the reload. -/
def Source.softClear (x : Source) : Source := { x with state := .live, counter := x.reload, applyFails := 0 }

/-- What an accepted SOFT_CLEAR does at its beginning (R194) but for the record clear. Open loads on several UNDEFINED
plates (R144) are closed in the order of plates 0 to 7, in which their descriptors join the back of the free list; the
spec gives no order among the plates: DEDUCED, log 14. -/
def State.clearBlocks (s : State) : State :=
  let s := { s with
    sources := s.sources.mapListed Source.por fun _ x => x.softClear
    lists := s.lists.mapListed CueList.por fun _ x => x.softClear
    cues := s.cues.mapListed Cue.por fun _ x => x.softClear
    events := .empty
    lines := s.lines.mapListed Line.por fun _ x => x.softClear
    inputs := s.inputs.mapListed Input.por fun _ x => x.softClear
    tiles := s.tiles.mapListed Tile.por fun _ x => x.softClear
    links := s.links.mapListed Link.por fun _ x => x.softClear
    work := { s.work with lossDue := [], platesDue := [], dissolvesDue := [], evaluation := none } }
  s.each State.softClearPlate (List.range 8)

/-- The beginning of a SOFT_CLEAR (R194): the records the render reads wait for a pass in progress, or are cleared at
once. -/
def State.beginSoftClear (s : State) : State :=
  let s := s.clearBlocks
  if s.work.phase = .rendering then { s with softClear := .waiting } else s.clearRecords.advance

/-- The outstanding record clear, at its render complete. -/
def State.clearIfWaiting (s : State) : State := if s.softClear = .waiting then s.clearRecords else s

/-! ### Render complete (R96) -/

/-- The render complete of a pass in progress. -/
def State.completeRender (s : State) : State :=
  let s := s.publish
  let s := s.clearIfWaiting
  let s := s.handOver
  s.setWork { s.work with phase := .idle }

/-! ### Catching up (log 4) -/

/-- The rest of a frame start's application and outstanding ticks. A tick of a source that the frame being taken has
loaded, a SET_TIMING whose frame start comes at once or a read that awaits the application (`State.awaited`), is taken
from the loaded counter (R50; log 21). Several sources that reach 0 at one tick (R46) are lost in ascending source number
where no SOURCE_LOST row takes them: the spec gives no order among them, DESIGN CHOICE, log 43. -/
def State.settleApplication (s : State) : State :=
  let s := s.applyDue s.queue.length
  s.each State.takeTick s.work.lossDue

/-- The counts that end, each list emptied and its members completed; the evaluation of cues between them. -/
def State.settleCounts (s : State) : State :=
  let w := s.work
  let s := s.setWork { w with fadesDue := [], mastersDue := [], platesDue := [], dissolvesDue := [], wakesDue := [] }
  let s := s.each State.completeFade w.fadesDue
  let s := s.each State.completeMaster w.mastersDue
  let s := s.evaluateAll 40
  let s := s.each State.completePlate w.platesDue
  let s := s.each State.completeDissolve w.dissolvesDue
  s.each State.completeWake w.wakesDue

/-- A frame start's work up to the beginning of its render pass, whatever of it is left. -/
def State.settleToPass (s : State) : State :=
  match s.work.phase with
  | .idle => s
  | .applying => s.settleApplication.beginCounting.settleCounts.beginRender
  | .counting => s.settleCounts.beginRender
  | .rendering => s

/-- A frame start's work up to its render complete, whatever of it is left. -/
def State.settleRender (s : State) : State :=
  match s.work.phase with
  | .idle => s
  | .applying => s.settleToPass.completeRender
  | .counting => s.settleToPass.completeRender
  | .rendering => (s.evaluateAll 40).completeRender

/-- The links whose rest is outstanding (R163). -/
def State.settleIdle (s : State) : State :=
  let l := s.work.idleDue
  (s.setWork { s.work with idleDue := [] }).each State.restLink l

/-- Everything left of the last frame start. -/
def State.settle (s : State) : State := (s.settleRender.evaluateAll 40).settleIdle

/-! ### The frame start (R14, R16, R45, R84, R85, R178) -/

/-- The timed-from-reference flag of a frame start (R16): LOCKED, or HOLDOVER that does not expire at it (R11, log 8). -/
def Timer.timed (x : Timer) : Bool :=
  match x.state with
  | .freeRun => false
  | .acquiring => false
  | .locked => true
  | .holdover => !x.expiryDue

/-- The counter a frame start delivers (R14). -/
def Timer.nextFrame (x : Timer) : Word := x.pendingFrame.getD (x.counter + 1)

/-- The due set of frame start m, marked in the queue (R85). -/
def State.fixDueSet (s : State) (m : Word) : State :=
  { s with queue := s.queue.map fun e => { e with due := e.isDueAt m } }

/-- The supervision tick of frame start m, where one occurs (R45, R46). -/
def State.superviseAt (s : State) (m : Word) : State :=
  if tickAt s.interval m then s.each State.tickSource (List.range 5) else s

/-- What a frame start makes of the records that tell this frame from the last: the plates that are PLAYING before its
application (R149), and the link frames that are now of an earlier render (R152). -/
def State.turnFrame (s : State) : State :=
  { s with
    plates := s.plates.mapListed Plate.por fun _ x => { x with wasPlaying := x.state == .playing }
    links := s.links.mapListed Link.por fun _ x => x.passFrame }

/-- A frame start issued at timebase time t, the timer's own transition already made: what is left of the last one is
settled, the counter and the flag are delivered, and the new frame's work begins. -/
def State.frameStart (s : State) (t : Nat) : State :=
  let s := s.settle
  let m := s.timer.nextFrame
  let s := s.setTimer { s.timer with counter := m, pendingFrame := none, lastFrameStart := t,
                                     timedFromRef := s.timer.timed }
  let s := s.abandonFetches.turnFrame
  let s := s.fixDueSet m
  let s := s.setWork { Work.none with phase := .applying, evaluation := some ⟨0, 0⟩ }
  let s := s.superviseAt m
  s.skipIdle.advance

end Sys2Proof.Machine
end

