-- ==== Sys2Proof/Machine/StudioTime.lean ====
section
/-! DEFINITION. Studio time (spec chapter 1): the reference tests, the Frame Timer's transitions on a pulse, on a
deadline and at the end of holdover, SET_TIMING, SET_FRAME and READ_TIMING. -/

namespace Sys2Proof.Machine

/-! ### The reference tests (R2) -/

/-- The nominal period of the current rate code. -/
def Timer.nominal (x : Timer) : Nat := nominalPeriod x.rate

/-- A good interval differs from N by no more than N/256. -/
def goodInterval (N i : Nat) : Bool := N ≤ i + N / 256 && i ≤ N + N / 256

/-- The loss deadline after a pulse at time p. -/
def lossDeadlineAt (N p : Nat) : Nat := p + N + N / 8

/-- A pulse at t is a glitch after a frame start at f. -/
def isGlitch (N f t : Nat) : Bool := t < f + (N - N / 8)

/-- A frame start at f makes an alignment pulse at t a runt. -/
def isRunt (N f t : Nat) : Bool := t < f + N / 4

/-! ### FREE_RUN (R3) -/

/-- The fields that entering FREE_RUN sets (R3). -/
def Timer.freeRun (x : Timer) : Timer :=
  { x with state := .freeRun, heldPeriod := x.nominal, localPeriod := x.nominal, acquireCount := 0, badRun := 0,
           holdoverCount := 0, lastPulse := none, lastInterval := none, expiryDue := false }

/-- The timer enters FREE_RUN (R3); where the next frame start's instant has passed, it is issued at once. -/
def State.enterFreeRun (s : State) : State :=
  let x := s.timer.freeRun
  let s' := s.setTimer x
  if x.lastFrameStart + x.localPeriod < s.now then s'.frameStart s.now else s'

/-! ### Holdover's end (R11) -/

/-- The expiry of holdover, where it is outstanding (R11). Entering FREE_RUN sets the holdover count to 0 (R3) and the
expiry in ACQUIRING keeps it, as 1.7's second sequence has it, so the two orders of R12 differ in that count (DEDUCED,
log 35). -/
def State.expireHoldover (s : State) : State :=
  if !s.timer.expiryDue then s
  else match s.timer.state with
    | .holdover => (((s.setTimer { s.timer with timedFromRef := false }).raise .holdoverEnd)).enterFreeRun
    | .acquiring =>
      (s.setTimer { s.timer with cameFrom := .freeRun, heldPeriod := s.timer.nominal, localPeriod := s.timer.nominal,
                                 expiryDue := false }).raise .holdoverEnd
    | .freeRun => s.setTimer { s.timer with expiryDue := false }
    | .locked => s.setTimer { s.timer with expiryDue := false }

/-- Whether holdover counting runs (R11). -/
def Timer.countsHoldover (x : Timer) : Bool :=
  x.state == .holdover || (x.state == .acquiring && x.cameFrom == .holdover)

/-- The holdover count at a frame start of the local timer (R11), the expiry left to HOLDOVER_END (log 4). -/
def Timer.countHoldover (x : Timer) : Timer :=
  if x.countsHoldover then
    let n := saturate 65535 x.holdoverCount
    { x with holdoverCount := n, expiryDue := x.holdoverLimit == 0 || x.holdoverLimit ≤ n }
  else x

/-! ### The local timer (R3) -/

/-- LOCAL_TIMER_EXPIRY: one local period after the last frame start (R3), at the latest time seen (log 6). -/
def State.localExpiry (s : State) : State :=
  let s := s.expireHoldover
  if s.timer.state = .locked then s
  else
    let t := max s.now (s.timer.lastFrameStart + s.timer.localPeriod)
    let s := { s with now := t }
    (s.setTimer s.timer.countHoldover).frameStart t

/-! ### REF pulses (R4 to R9, R12) -/

/-- The first pulse of an acquisition (R4, R12). -/
def Timer.startAcquiring (x : Timer) (from' : CameFrom) (t : Nat) : Timer :=
  { x with state := .acquiring, cameFrom := from', lastPulse := some t, acquireCount := 0, lastInterval := none }

/-- The interval a pulse at t measures. -/
def Timer.interval (x : Timer) (t : Nat) : Option Nat := x.lastPulse.map fun p => t - p

/-- Alignment (R6): the timer's fields but the last frame start time, which the pulse takes in either case. -/
def Timer.align (x : Timer) (i t : Nat) : Timer :=
  { x with state := .locked, heldPeriod := i, lastInterval := some i, lastPulse := some t, acquireCount := 0, badRun := 0,
           holdoverCount := 0, expiryDue := false, lastFrameStart := t }

/-- A pulse in ACQUIRING (R5, R6). The frame start of an alignment out of ACQUIRING from HOLDOVER is not counted as one of
the holdover (R11), so it does not end the holdover and raises no HOLDOVER_END (DEDUCED, log 38). -/
def State.acquirePulse (s : State) (t : Nat) : State :=
  let x := s.timer
  let i := x.interval t
  let good := i.any (goodInterval x.nominal)
  let count := if good then x.acquireCount + 1 else 0
  if count < 8 then s.setTimer { x with lastInterval := i, lastPulse := some t, acquireCount := count }
  else
    let s' := (s.setTimer (x.align (i.getD 0) t)).raise .refLocked
    if isRunt x.nominal x.lastFrameStart t then s' else s'.frameStart t

/-- The fourth consecutive bad pulse (R9): LOCKED is left for ACQUIRING. -/
def Timer.drift (x : Timer) : Timer :=
  let x := { x with state := .acquiring, unlockCause := .drift, acquireCount := 0, badRun := 0 }
  if x.holdoverLimit = 0 then { x with cameFrom := .freeRun, heldPeriod := x.nominal, localPeriod := x.nominal }
  else { x with cameFrom := .holdover, holdoverCount := 0, localPeriod := x.heldPeriod }

/-- A pulse in LOCKED (R8, R9). -/
def State.lockedPulse (s : State) (t : Nat) : State :=
  let x := s.timer
  if isGlitch x.nominal x.lastFrameStart t then s.raise .refGlitch
  else
    let i := x.interval t
    let good := i.any (goodInterval x.nominal)
    let x' := { x with lastInterval := i, lastPulse := some t }
    if good then (s.setTimer { x' with heldPeriod := i.getD 0, badRun := 0 }).frameStart t
    else if x.badRun + 1 < 4 then (s.setTimer { x' with badRun := x.badRun + 1 }).frameStart t
    else ((s.setTimer x'.drift).raise .refLost).frameStart t

/-- REF_PULSE at timebase time t (R4 to R9, R12). -/
def State.refPulse (s : State) (time : Nat) : State :=
  let t := max s.now time
  let s := { s with now := t }
  if !s.timer.refEnable then s
  else match s.timer.state with
    | .freeRun => s.setTimer (s.timer.startAcquiring .freeRun t)
    | .holdover => s.setTimer (s.timer.startAcquiring .holdover t)
    | .acquiring => s.expireHoldover.acquirePulse t
    | .locked => s.lockedPulse t

/-! ### The loss deadline (R7, R10) -/

/-- The loss of the reference in ACQUIRING (R7). -/
def State.loseAcquisition (s : State) : State :=
  match s.timer.cameFrom with
  | .freeRun => s.enterFreeRun
  | .holdover => s.setTimer { s.timer with state := .holdover, acquireCount := 0, lastPulse := none }

/-- The loss of the reference in LOCKED (R10). -/
def State.loseLock (s : State) (t : Nat) : State :=
  let s := (s.setTimer { s.timer with unlockCause := .loss }).raise .refLost
  if s.timer.holdoverLimit = 0 then s.enterFreeRun
  else
    (s.setTimer { s.timer with state := .holdover, holdoverCount := 0, localPeriod := s.timer.heldPeriod,
                               lastPulse := none, badRun := 0 }).frameStart t

/-- LOSS_DEADLINE: N + N/8 after the last pulse, kept in ACQUIRING and LOCKED (R2, R7, R10). -/
def State.lossExpiry (s : State) : State :=
  let s := s.expireHoldover
  match s.timer.lastPulse with
  | none => s
  | some p =>
    let t := max s.now (lossDeadlineAt s.timer.nominal p)
    match s.timer.state with
    | .acquiring => ({ s with now := t }).loseAcquisition
    | .locked => ({ s with now := t }).loseLock t
    | .freeRun => s
    | .holdover => s

/-! ### Commands (R13, R14, R18) -/

/-- The effect of an accepted SET_TIMING (R13). -/
def State.applyTiming (s : State) (rate : Nat) (enable : Bool) (limit : Nat) : State :=
  let s := s.expireHoldover
  let x := s.timer
  let x' := { x with rate := rate, refEnable := enable, holdoverLimit := limit }
  if rate ≠ x.rate ∨ (x.refEnable = true ∧ enable = false) then
    (s.setTimer { x' with unlockCause := if x.state = .locked then .command else x.unlockCause }).enterFreeRun
  else s.setTimer x'

/-- SET_TIMING (R13). Its reply carries no fields (log 10). -/
def setTimingOwn (h : Header) (rate enable : Byte) (limit : Half) (s : State) : Verdict :=
  if !h.configures then .refuse .notPermitted
  else match onOff enable with
    | none => .refuse .range
    | some on =>
      if rate.toNat > 6 then .refuse .range
      else .accept (s.applyTiming rate.toNat on limit.toNat) false []

/-- SET_FRAME (R14). -/
def setFrameOwn (h : Header) (value : Word) (s : State) : Verdict :=
  if !h.configures then .refuse .notPermitted
  else .accept (s.setTimer { s.timer with pendingFrame := some value }) false (be32 s.timer.counter)

/-- The timer as READ_TIMING reports it (R18), with the time since the last frame start. -/
def State.timingBytes (s : State) : List Byte :=
  let x := s.timer
  u8 x.state.code ++ u8 (if x.state = .acquiring ∧ x.cameFrom = .holdover then 1 else 0) ++ u8 x.rate ++
    mark x.refEnable ++ u16 x.holdoverLimit ++ u16 x.holdoverCount ++ u8 x.acquireCount ++ u8 x.badRun ++
    u32 x.heldPeriod ++ u32 x.localPeriod ++ opt32 x.lastInterval ++ u8 x.unlockCause.code ++ mark x.timedFromRef ++
    be32 x.counter ++ present32 x.pendingFrame ++ u32 (s.now - x.lastFrameStart)

end Sys2Proof.Machine
end

