-- ==== Sys2Proof/Machine/Link.lean ====
section
/-! DEFINITION. The command link (spec chapter 11): transactions, the judging of a frame, the immediate commands of the
link itself, and the own checks of every command by its row. -/

namespace Sys2Proof.Machine

/-! ### Transactions (R185) -/

/-- The fall of CS# (R185): the reply buffer is latched as the outgoing reply, and is consumed. -/
def State.latchReply (s : State) : State := { s with outgoing := s.reply, reply := [] }

/-- The first n bytes that MISO carries in a transaction, byte by byte (R185): the outgoing reply, then bytes of 0. A host
that clocks fewer bytes than the reply holds sees its first bytes, and an empty reply is all 0. -/
def State.miso (s : State) (n : Nat) : List Byte := (s.outgoing ++ List.replicate n 0).take n

/-- TRANSACTION_BEGIN (R185); no transaction is taken while RESET# is low (R193), and none begins inside another. -/
def State.beginTransaction (s : State) : State :=
  if s.device = .resetLow ∨ s.transaction = true then s else { s.latchReply with transaction := true }

/-- The rise of CS# ends the transaction; a frame row that no TRANSACTION_BEGIN precedes stands for both (log 3). -/
def State.endTransaction (s : State) (time : Nat) : State :=
  let s := if s.transaction then { s with transaction := false } else s.latchReply
  { s with now := max s.now time }

/-! ### The link's own commands -/

/-- NOP (R185). -/
def nopOwn (s : State) : Verdict := .accept s false []

/-- The pending flags, the counts, the mask and the frame counter (R191; log 10). -/
def State.eventBytes (s : State) : List Byte :=
  (List.range 13).flatMap (fun k => mark (s.event k).pending) ++ (List.range 13).flatMap (fun k => u8 (s.event k).count) ++
    be16 s.mask ++ be32 s.timer.counter

/-- READ_EVENTS (R191). -/
def readEventsOwn (s : State) : Verdict := .accept { s with events := .empty } false s.eventBytes

/-- SET_EVENT_MASK (R192). -/
def setEventMaskOwn (h : Header) (mask : Half) (s : State) : Verdict :=
  if !h.configures then .refuse .notPermitted
  else if mask.toNat ≥ 8192 then .refuse .range
  else .accept { s with mask := mask } false (be16 mask)

/-- SOFT_CLEAR (R194). -/
def softClearOwn (h : Header) (s : State) : Verdict :=
  if h.src ≠ 0 then .refuse .notPermitted else .accept s.beginSoftClear false []

end Sys2Proof.Machine

namespace Sys2Proof

open Sys2Proof.Machine

/-- A command's own checks and effect (R186, step 8). `before` is the state before the frame's liveness reload. An event
row and the raw frame have none. -/
def Instr.own (before s : State) : Instr → Verdict
  | .nop _ => nopOwn s
  | .readEvents _ => readEventsOwn s
  | .setEventMask h m => setEventMaskOwn h m s
  | .softClear h => softClearOwn h s
  | .setTiming h r e l => setTimingOwn h r e l s
  | .setFrame h v => setFrameOwn h v s
  | .readTiming _ => .accept s false s.timingBytes
  | .setPoint h b => setPointArrival h b s
  | .bindPoint h p b => bindPointArrival h p b s
  | .loadCurve h c ks => loadCurveArrival h c ks s
  | .defineGroup h b => defineGroupOwn h b s
  | .readPoint _ p => readPointOwn p s
  | .readGroup _ g => readGroupOwn g s
  | .readCurve _ c => readCurveOwn c s
  | .setSource h b => setSourceOwn h b s
  | .setSupervision h i => setSupervisionOwn h i s
  | .touch h => touchOwn h before s
  | .readSource h t c => readSourceOwn h t c s
  | .take h b => takeArrival h b s
  | .release h a => releaseArrival h a s
  | .releaseSource h t => releaseSourceArrival h t s
  | .pause h a => pauseArrival h a s
  | .resume h a => resumeArrival h a s
  | .readContribution _ a w => readContributionOwn a w s
  | .flush h t a => flushOwn h t a s
  | .readQueue _ f c => readQueueOwn f c s
  | .forceSet h x m v => forceSetArrival h x m v s
  | .forceClear h x => forceClearArrival h x s
  | .freeze h g => freezeArrival h g s
  | .thaw h g => thawArrival h g s
  | .masterSet h m t f => masterSetArrival h m t f s
  | .setWorklightLevel h v => setWorklightLevelArrival h v s
  | .readOverrides _ w => readOverridesOwn w s
  | .setLine h l e c r => setLineOwn h l e c r s
  | .readLine h l c => readLineOwn h l c s
  | .setInput h i e => setInputOwn h i e s
  | .readInput h i c => readInputOwn h i c s
  | .loadPlate h b => loadPlateOwn h b s
  | .platePlay h p => platePlayArrival h p s
  | .plateStop h p => plateStopArrival h p s
  | .setTile h b => setTileArrival h b s
  | .setLink h l w i => setLinkOwn h l w i s
  | .readTile h t c => readTileOwn h t c s
  | .readLink h l c => readLinkOwn h l c s
  | .readPlate h p c w => readPlateOwn h p c w s
  | .loadCue h b => loadCueOwn h b s
  | .linkCue h l c p => linkCueOwn h l c p s
  | .unlinkCue h c => unlinkCueOwn h c s
  | .eraseCue h c => eraseCueOwn h c s
  | .setList h l a p => setListOwn h l a p s
  | .startList h l => startListOwn h l s
  | .stopList h l => stopListOwn h l s
  | .go h l => goOwn h l s
  | .readCue _ c w => readCueOwn c w s
  | .readList _ l => readListOwn l s
  | .transactionBegin | .unknownCommand _ _ | .softClearComplete | .setPointApply | .bindPointApply
  | .loadCurveApply | .takeApply | .releaseApply | .releaseSourceApply | .pauseApply | .resumeApply | .forceSetApply
  | .forceClearApply | .freezeApply | .thawApply | .masterSetApply | .setWorklightLevelApply | .platePlayApply
  | .plateStopApply | .setTileApply | .resetFall | .resetRise | .initialisationEnd _ | .refPulse _ | .lossDeadline
  | .localTimerExpiry | .holdoverEnd | .sourceLost _ | .fadeInComplete _ | .fadeOutComplete _ | .masterFadeEnd _
  | .cueFire | .plateHoldExpiry _ | .dissolveEnd _ | .linkWakeComplete _ | .renderComplete | .linkIdleExpiry _
  | .lineFrameEnd _ | .tilePacketEnd _ | .readCompletion _ | .readError | .wltChange _
  | .signalPresentChange _ _ => .refuse .unknownCommand

/-- FAN on a TAKE whose body's form byte says LIST (R59), as the bytes clocked in show it: the form follows the name and
the selector, whatever the body's length. A form code other than UNIFORM and LIST counts as no LIST: DESIGN CHOICE, log
36. -/
def RawFrame.fanOnList (f : RawFrame) : Bool :=
  f.code == 0x20 && f.body[8]? == some 1 && f.mods.any fun m => m.code == 5

/-- The status of a frame whose body's length does not match its fields (R186): check 6 comes before check 7. -/
def RawFrame.mismatchStatus (f : RawFrame) : Status :=
  if f.fanOnList then .modifierInvalid else (modifierProblem f.code f.mods).getD .range

/-- A FAN modifier on a TAKE with a LIST body (R59). R59 names MODIFIER_INVALID for LIST alone; FAN on a TAKE whose form
code is neither UNIFORM nor LIST so passes check 6, and the form is refused RANGE in check 8: DESIGN CHOICE, log 36. -/
def Instr.fanOnList : Instr → Bool
  | .take h b => b.form == 1 && (h.mod? 5).isSome
  | _ => false

end Sys2Proof

namespace Sys2Proof.Machine

/-! ### Judging a frame (R186, R187) -/

/-- Check 6 on a row: the modifier checks of R187, with R59's refusal among its check 2. -/
def modifierStatus (i : Instr) (h : Header) (code : Byte) : Option Status :=
  if i.fanOnList then some .modifierInvalid else modifierProblem code h.mods

/-- The reply a verdict forms (R188): a refusal leaves every table as it stood, and its reply is sent without the CLAMPED
mark, also where a priority, an AT or an offset was clamped before the refusal (DESIGN CHOICE, log 41). -/
def State.answer (s : State) (code : Byte) : Verdict → State
  | .refuse st => s.replyWith code st false []
  | .accept t clamped fields => t.replyWith code .ok clamped fields

/-- What a command finds done of the last frame start's work, where the spec says so (DESIGN CHOICE for the rest, log 4).
A command that acts on a list or on its chain is taken after the evaluation of that frame start, so that the list has one
of the two outcomes of R183; the other one, "before", is the command's row ahead of the frame start's row. READ_CUE and
READ_LIST describe their records after that evaluation (R184). READ_CONTRIBUTION and READ_OVERRIDES describe theirs after
the applications, releases and counts of the frame start (R77, R132), and READ_SOURCE after every change made there, a
tick included (R52); where the source that sends it reads its own record and its tick is outstanding, the frame comes
before the tick (R50, log 21) and waits for nothing. Every other command meets the work as far as it has come. -/
def State.awaited (s : State) : Instr → State
  | .linkCue _ _ _ _ | .unlinkCue _ _ | .startList _ _ | .stopList _ _ | .go _ _ | .readCue _ _ _ | .readList _ _ =>
    s.evaluateAll 40
  | .readContribution _ _ _ | .readOverrides _ _ => s.settleToPass
  | .readSource h n _ => if n.toNat = h.src ∧ h.src ∈ s.work.lossDue then s else s.settleToPass
  | _ => s

/-- Checks 6 to 8 on a frame whose source has been reloaded: `before` is the state before the reload. The command's own
checks meet the tables as the work it awaits has left them, whether they accept or refuse it. -/
def State.judgeCommand (before s : State) (code : Byte) (h : Header) (i : Instr) : State :=
  match modifierStatus i h code with
  | some st => s.replyWith code st false []
  | none =>
    if !i.bodyLengthMatches then s.replyWith code .range false []
    else (s.awaited i).answer code (i.own before (s.awaited i))

/-- The bytes a structured frame has (11.8). -/
def frameLength (h : Header) (i : Instr) : Nat := 5 + 5 * h.mods.length + i.bodyBytes.length

/-- The liveness reload of a frame answered BUSY (R186, check 1). -/
def State.busyReload (s : State) (source : Nat) : State := if source ≤ 4 then s.reloadSource source else s

/-- Checks 1 to 5 of a structured frame, and the rest (R186). -/
def State.judgeFrame (s : State) (code : Byte) (h : Header) (i : Instr) : State :=
  if s.busy then
    (if frameLength h i > 1100 then s else s.busyReload h.src).replyWith code .busy false []
  else if frameLength h i > 1100 then s.replyWith code .badLength false []
  else if h.src > 4 then s.replyWith code .range false []
  else State.judgeCommand s (s.reloadSource h.src) code h i

/-- The rise of CS# that takes a structured frame (R185, R186), and the frame work it sets free. -/
def State.takeFrame (s : State) (h : Header) (i : Instr) : State :=
  if s.device = .resetLow then s
  else
    let s := s.endTransaction h.time
    State.resume s (s.judgeFrame (i.code?.getD 0) h i)

/-- A frame of raw bytes whose lengths agree (R186, checks 3 to 8). -/
def State.judgeRaw (s : State) (f : RawFrame) (time : Nat) : State :=
  let h : Header := ⟨time, f.source, f.mods⟩
  if s.busy then (s.busyReload h.src).replyWith f.code .busy false []
  else if h.src > 4 then s.replyWith f.code .range false []
  else
    let r := s.reloadSource h.src
    if !commandCodes.contains f.code then r.replyWith f.code .unknownCommand false []
    else match decodeBody h f.code f.body with
      | some i => State.judgeCommand s r f.code h i
      | none => r.replyWith f.code f.mismatchStatus false []

/-- The rise of CS# that takes clocked bytes (R185, R186). -/
def State.takeBytes (s : State) (time : Nat) (bytes : List Byte) : State :=
  if s.device = .resetLow then s
  else
    let s := s.endTransaction time
    match splitFrame bytes with
    | none => s.replyWith (bytes.headD 0) (if s.busy then .busy else .badLength) false []
    | some f => State.resume s (s.judgeRaw f time)

/-! ### RESET# (R193) -/

/-- RESET# low (R193): the transaction is abandoned, lines and links are idle at once, reads stop (log 19). -/
def State.resetFalls (s : State) : State :=
  { s with
    device := .resetLow
    softClear := .none
    transaction := false
    outgoing := []
    lines := s.lines.mapListed Line.por fun _ x => x.abandon
    links := s.links.mapListed Link.por fun _ x => x.abandon
    fetches := []
    work := Work.none }

/-- An input's POR record under the pin's present level (R142). -/
def Input.reset (x : Input) : Input := { Input.por 0 with pin := x.pin }

/-- RESET# rises (R193): every item of state at its POR value, the pins as they stand; initialisation begins. -/
def State.resetRises (s : State) : State :=
  if s.device ≠ .resetLow then s
  else
    { State.reset with
      pending := s.pending
      now := s.now
      draws := s.draws
      device := .initialising
      wltPin := s.wltPin
      inputs := s.inputs.mapListed Input.por fun _ x => x.reset }

/-- Initialisation ends (R193, R3): BUSY falls and frame 0 begins. -/
def State.endInitialisation (s : State) (time : Nat) : State :=
  if s.device ≠ .initialising then s
  else
    let t := max s.now time
    ({ s with now := t, device := .running }).setTimer { s.timer with lastFrameStart := t }

/-! ### SOFT_CLEAR's end (R194) -/

/-- Every block has made its changes and BUSY falls (R194); a record clear still waiting is made first, at its render
complete (log 26). -/
def State.endSoftClear (s : State) : State :=
  if s.softClear = .none then s
  else
    let s := if s.softClear = .waiting then s.settleRender.clearIfWaiting else s
    { s with softClear := .none }

end Sys2Proof.Machine
end

