-- ==== Sys2Proof/Machine/Commands.lean ====
section
/-! DEFINITION. The meaning of every command row: the rise of CS# that takes a frame of that command (R186). A meaning
holds the whole frame: the checks of 11.2 in order, the command's own checks and effect, and its reply. -/

namespace Sys2Proof.Machine

/-- What every meaning answers. -/
abbrev Meaning := Host.Outcome State Fault Refusal

/-- NOP (R185). -/
def execNop (h : Header) (s : State) : Meaning :=
  .next (s.takeFrame h (.nop h))

/-- READ_EVENTS (R191). -/
def execReadEvents (h : Header) (s : State) : Meaning :=
  .next (s.takeFrame h (.readEvents h))

/-- SET_EVENT_MASK (R190, R192). -/
def execSetEventMask (h : Header) (mask : Half) (s : State) : Meaning :=
  .next (s.takeFrame h (.setEventMask h mask))

/-- SOFT_CLEAR (R194). -/
def execSoftClear (h : Header) (s : State) : Meaning :=
  .next (s.takeFrame h (.softClear h))

/-- SET_TIMING (R3, R11, R13). -/
def execSetTiming (h : Header) (rate : Byte) (enable : Byte) (limit : Half) (s : State) : Meaning :=
  .next (s.takeFrame h (.setTiming h rate enable limit))

/-- SET_FRAME (R14). -/
def execSetFrame (h : Header) (value : Word) (s : State) : Meaning :=
  .next (s.takeFrame h (.setFrame h value))

/-- READ_TIMING (R18). -/
def execReadTiming (h : Header) (s : State) : Meaning :=
  .next (s.takeFrame h (.readTiming h))

/-- SET_POINT (R23). -/
def execSetPoint (h : Header) (b : SetPointBody) (s : State) : Meaning :=
  .next (s.takeFrame h (.setPoint h b))

/-- BIND_POINT (R25). -/
def execBindPoint (h : Header) (point : Half) (binding : BindingField) (s : State) : Meaning :=
  .next (s.takeFrame h (.bindPoint h point binding))

/-- LOAD_CURVE (R35). -/
def execLoadCurve (h : Header) (curve : Byte) (knots : List Half) (s : State) : Meaning :=
  .next (s.takeFrame h (.loadCurve h curve knots))

/-- DEFINE_GROUP (R31). -/
def execDefineGroup (h : Header) (b : DefineGroupBody) (s : State) : Meaning :=
  .next (s.takeFrame h (.defineGroup h b))

/-- READ_POINT (R36). -/
def execReadPoint (h : Header) (point : Half) (s : State) : Meaning :=
  .next (s.takeFrame h (.readPoint h point))

/-- READ_GROUP (R37). -/
def execReadGroup (h : Header) (group : Byte) (s : State) : Meaning :=
  .next (s.takeFrame h (.readGroup h group))

/-- READ_CURVE (R37). -/
def execReadCurve (h : Header) (curve : Byte) (s : State) : Meaning :=
  .next (s.takeFrame h (.readCurve h curve))

/-- SET_SOURCE (R41, R42, R43). -/
def execSetSource (h : Header) (b : SetSourceBody) (s : State) : Meaning :=
  .next (s.takeFrame h (.setSource h b))

/-- SET_SUPERVISION (R45). -/
def execSetSupervision (h : Header) (interval : Byte) (s : State) : Meaning :=
  .next (s.takeFrame h (.setSupervision h interval))

/-- TOUCH (R49, R50, R51). -/
def execTouch (h : Header) (s : State) : Meaning :=
  .next (s.takeFrame h (.touch h))

/-- READ_SOURCE (R44, R52). -/
def execReadSource (h : Header) (target : Byte) (clear : Byte) (s : State) : Meaning :=
  .next (s.takeFrame h (.readSource h target clear))

/-- TAKE (R32, R39, R40, R53, R56, R57, R58, R59, R60, R61). -/
def execTake (h : Header) (b : TakeBody) (s : State) : Meaning :=
  .next (s.takeFrame h (.take h b))

/-- RELEASE (R68, R69). -/
def execRelease (h : Header) (address : AddressField) (s : State) : Meaning :=
  .next (s.takeFrame h (.release h address))

/-- RELEASE_SOURCE (R71). -/
def execReleaseSource (h : Header) (target : Byte) (s : State) : Meaning :=
  .next (s.takeFrame h (.releaseSource h target))

/-- PAUSE (R68, R76). -/
def execPause (h : Header) (address : AddressField) (s : State) : Meaning :=
  .next (s.takeFrame h (.pause h address))

/-- RESUME (R68, R76). -/
def execResume (h : Header) (address : AddressField) (s : State) : Meaning :=
  .next (s.takeFrame h (.resume h address))

/-- READ_CONTRIBUTION (R77, R78). -/
def execReadContribution (h : Header) (address : ReadAddressField) (window : Option Window) (s : State) : Meaning :=
  .next (s.takeFrame h (.readContribution h address window))

/-- FLUSH (R40, R54, R58, R63, R75, R93). -/
def execFlush (h : Header) (target : Byte) (arrival : Option Word) (s : State) : Meaning :=
  .next (s.takeFrame h (.flush h target arrival))

/-- READ_QUEUE (R94). -/
def execReadQueue (h : Header) (first : Byte) (count : Byte) (s : State) : Meaning :=
  .next (s.takeFrame h (.readQueue h first count))

/-- FORCE_SET (R32, R43, R120). -/
def execForceSet (h : Header) (selector : SelectorField) (mode : Byte) (value : Half) (s : State) : Meaning :=
  .next (s.takeFrame h (.forceSet h selector mode value))

/-- FORCE_CLEAR (R32, R43, R122). -/
def execForceClear (h : Header) (selector : SelectorField) (s : State) : Meaning :=
  .next (s.takeFrame h (.forceClear h selector))

/-- FREEZE (R123). -/
def execFreeze (h : Header) (group : Byte) (s : State) : Meaning :=
  .next (s.takeFrame h (.freeze h group))

/-- THAW (R123). -/
def execThaw (h : Header) (group : Byte) (s : State) : Meaning :=
  .next (s.takeFrame h (.thaw h group))

/-- MASTER_SET (R43, R127). -/
def execMasterSet (h : Header) (master : Byte) (target : Half) (fade : Half) (s : State) : Meaning :=
  .next (s.takeFrame h (.masterSet h master target fade))

/-- SET_WORKLIGHT_LEVEL (R131). -/
def execSetWorklightLevel (h : Header) (level : Half) (s : State) : Meaning :=
  .next (s.takeFrame h (.setWorklightLevel h level))

/-- READ_OVERRIDES (R132). -/
def execReadOverrides (h : Header) (window : Option Window) (s : State) : Meaning :=
  .next (s.takeFrame h (.readOverrides h window))

/-- SET_LINE (R134, R140). -/
def execSetLine (h : Header) (line : Byte) (enabled : Byte) (count : Half) (rate : Byte) (s : State) : Meaning :=
  .next (s.takeFrame h (.setLine h line enabled count rate))

/-- READ_LINE (R141). -/
def execReadLine (h : Header) (line : Byte) (clear : Byte) (s : State) : Meaning :=
  .next (s.takeFrame h (.readLine h line clear))

/-- SET_INPUT (R143). -/
def execSetInput (h : Header) (input : Byte) (enabled : Byte) (s : State) : Meaning :=
  .next (s.takeFrame h (.setInput h input enabled))

/-- READ_INPUT (R143). -/
def execReadInput (h : Header) (input : Byte) (clear : Byte) (s : State) : Meaning :=
  .next (s.takeFrame h (.readInput h input clear))

/-- LOAD_PLATE (R145, R146, R147). -/
def execLoadPlate (h : Header) (b : LoadPlateBody) (s : State) : Meaning :=
  .next (s.takeFrame h (.loadPlate h b))

/-- PLATE_PLAY (R148). -/
def execPlatePlay (h : Header) (plate : Byte) (s : State) : Meaning :=
  .next (s.takeFrame h (.platePlay h plate))

/-- PLATE_STOP (R148). -/
def execPlateStop (h : Header) (plate : Byte) (s : State) : Meaning :=
  .next (s.takeFrame h (.plateStop h plate))

/-- SET_TILE (R155). -/
def execSetTile (h : Header) (b : SetTileBody) (s : State) : Meaning :=
  .next (s.takeFrame h (.setTile h b))

/-- SET_LINK (R164). -/
def execSetLink (h : Header) (link : Byte) (wake : Byte) (idle : Half) (s : State) : Meaning :=
  .next (s.takeFrame h (.setLink h link wake idle))

/-- READ_TILE (R165). -/
def execReadTile (h : Header) (tile : Byte) (clear : Byte) (s : State) : Meaning :=
  .next (s.takeFrame h (.readTile h tile clear))

/-- READ_LINK (R165). -/
def execReadLink (h : Header) (link : Byte) (clear : Byte) (s : State) : Meaning :=
  .next (s.takeFrame h (.readLink h link clear))

/-- READ_PLATE (R165). -/
def execReadPlate (h : Header) (plate : Byte) (clear : Byte) (window : Option Window) (s : State) : Meaning :=
  .next (s.takeFrame h (.readPlate h plate clear window))

/-- LOAD_CUE (R32, R43, R167, R170, R171, R183). -/
def execLoadCue (h : Header) (b : LoadCueBody) (s : State) : Meaning :=
  .next (s.takeFrame h (.loadCue h b))

/-- LINK_CUE (R172, R183). -/
def execLinkCue (h : Header) (list : Byte) (cue : Half) (position : PositionField) (s : State) : Meaning :=
  .next (s.takeFrame h (.linkCue h list cue position))

/-- UNLINK_CUE (R173, R183). -/
def execUnlinkCue (h : Header) (cue : Half) (s : State) : Meaning :=
  .next (s.takeFrame h (.unlinkCue h cue))

/-- ERASE_CUE (R167, R174, R183). -/
def execEraseCue (h : Header) (cue : Half) (s : State) : Meaning :=
  .next (s.takeFrame h (.eraseCue h cue))

/-- SET_LIST (R175). -/
def execSetList (h : Header) (list : Byte) (acting : Byte) (loop : Byte) (s : State) : Meaning :=
  .next (s.takeFrame h (.setList h list acting loop))

/-- START_LIST (R176, R183). -/
def execStartList (h : Header) (list : Byte) (s : State) : Meaning :=
  .next (s.takeFrame h (.startList h list))

/-- STOP_LIST (R176, R183). -/
def execStopList (h : Header) (list : Byte) (s : State) : Meaning :=
  .next (s.takeFrame h (.stopList h list))

/-- GO (R177, R183). -/
def execGo (h : Header) (list : Byte) (s : State) : Meaning :=
  .next (s.takeFrame h (.go h list))

/-- READ_CUE (R184). -/
def execReadCue (h : Header) (cue : Half) (window : Option Window) (s : State) : Meaning :=
  .next (s.takeFrame h (.readCue h cue window))

/-- READ_LIST (R184). -/
def execReadList (h : Header) (list : Byte) (s : State) : Meaning :=
  .next (s.takeFrame h (.readList h list))

end Sys2Proof.Machine
end

