-- ==== Sys2Proof/Machine/Events.lean ====
section
/-! DEFINITION. The meaning of every event row, and of the two rows of the link that are no structured frame. An event
whose occurrence the part's state does not allow changes nothing (log 5); while RESET# is low and during initialisation
only the pins, the reset and the link act (R193). -/

namespace Sys2Proof.Machine

/-- An event of a running part. -/
def State.whenRunning (s : State) (t : State) : State := if s.device = .running then t else s

/-! ### The link -/

/-- TRANSACTION_BEGIN: the fall of CS# (R185). -/
def execTransactionBegin (s : State) : Meaning := .next s.beginTransaction

/-- UNKNOWN_COMMAND: the rise of CS# over any clocked bytes (R49, R185 to R189). -/
def execUnknownCommand (time : Nat) (bytes : List Byte) (s : State) : Meaning := .next (s.takeBytes time bytes)

/-- SOFT_CLEAR_COMPLETE (R189, R194). -/
def execSoftClearComplete (s : State) : Meaning := .next (s.whenRunning s.endSoftClear)

/-! ### Application rows (R85) -/

/-- The application of due entries up to and including the first of a kind, and what that sets free. -/
def State.applyRow (s : State) (k : EntryKind) : State :=
  if s.device = .running ∧ s.hasDue k = true then (s.applyThrough k s.queue.length).advance else s

/-- SET_POINT_APPLY (R24). -/
def execSetPointApply (s : State) : Meaning := .next (s.applyRow .setPoint)

/-- BIND_POINT_APPLY (R26). -/
def execBindPointApply (s : State) : Meaning := .next (s.applyRow .bindPoint)

/-- LOAD_CURVE_APPLY (R35). -/
def execLoadCurveApply (s : State) : Meaning := .next (s.applyRow .loadCurve)

/-- TAKE_APPLY (R64, R65). -/
def execTakeApply (s : State) : Meaning := .next (s.applyRow .take)

/-- RELEASE_APPLY (R70, R87). -/
def execReleaseApply (s : State) : Meaning := .next (s.applyRow .release)

/-- RELEASE_SOURCE_APPLY (R71). -/
def execReleaseSourceApply (s : State) : Meaning := .next (s.applyRow .releaseSource)

/-- PAUSE_APPLY (R76). -/
def execPauseApply (s : State) : Meaning := .next (s.applyRow .pause)

/-- RESUME_APPLY (R76). -/
def execResumeApply (s : State) : Meaning := .next (s.applyRow .resume)

/-- FORCE_SET_APPLY (R121). -/
def execForceSetApply (s : State) : Meaning := .next (s.applyRow .forceSet)

/-- FORCE_CLEAR_APPLY (R122). -/
def execForceClearApply (s : State) : Meaning := .next (s.applyRow .forceClear)

/-- FREEZE_APPLY (R124). -/
def execFreezeApply (s : State) : Meaning := .next (s.applyRow .freeze)

/-- THAW_APPLY (R124). -/
def execThawApply (s : State) : Meaning := .next (s.applyRow .thaw)

/-- MASTER_SET_APPLY (R128). -/
def execMasterSetApply (s : State) : Meaning := .next (s.applyRow .masterSet)

/-- SET_WORKLIGHT_LEVEL_APPLY (R131). -/
def execSetWorklightLevelApply (s : State) : Meaning := .next (s.applyRow .setWorklightLevel)

/-- PLATE_PLAY_APPLY (R148). -/
def execPlatePlayApply (s : State) : Meaning := .next (s.applyRow .platePlay)

/-- PLATE_STOP_APPLY (R148). -/
def execPlateStopApply (s : State) : Meaning := .next (s.applyRow .plateStop)

/-- SET_TILE_APPLY (R155). -/
def execSetTileApply (s : State) : Meaning := .next (s.applyRow .setTile)

/-! ### Reset (R193) -/

/-- RESET_FALL (R193). -/
def execResetFall (s : State) : Meaning := .next s.resetFalls

/-- RESET_RISE (R193). -/
def execResetRise (s : State) : Meaning := .next s.resetRises

/-- INITIALISATION_END (R3, R193). -/
def execInitialisationEnd (time : Nat) (s : State) : Meaning := .next (s.endInitialisation time)

/-! ### The Frame Timer -/

/-- REF_PULSE (R4 to R9, R12). -/
def execRefPulse (time : Nat) (s : State) : Meaning := .next (s.whenRunning (s.refPulse time))

/-- LOSS_DEADLINE (R7, R10). -/
def execLossDeadline (s : State) : Meaning := .next (s.whenRunning s.lossExpiry)

/-- LOCAL_TIMER_EXPIRY (R3, R11). -/
def execLocalTimerExpiry (s : State) : Meaning := .next (s.whenRunning s.localExpiry)

/-- HOLDOVER_END (R11). -/
def execHoldoverEnd (s : State) : Meaning := .next (s.whenRunning s.expireHoldover)

/-! ### The work of a frame start -/

/-- SOURCE_LOST, for a source whose tick is outstanding (R46, R47). -/
def execSourceLost (source : Fin 5) (s : State) : Meaning :=
  .next (s.whenRunning (if source.val ∈ s.work.lossDue then (s.loseSource source.val).advance else s))

/-- FADE_IN_COMPLETE, for a slot whose fade-in count ends at this frame start (R72). -/
def execFadeInComplete (slot : Fin 192) (s : State) : Meaning :=
  .next (s.whenRunning (
    if slot.val ∈ s.work.fadesDue ∧ (s.slot slot.val).record.any (fun c => c.phase == .fadingIn) then
      ((s.setWork { s.work with fadesDue := s.work.fadesDue.filter (· != slot.val) }).completeFadeIn slot.val).advance
    else s))

/-- FADE_OUT_COMPLETE, for a slot whose fade-out count ends at this frame start (R72, R75). -/
def execFadeOutComplete (slot : Fin 192) (s : State) : Meaning :=
  .next (s.whenRunning (
    if slot.val ∈ s.work.fadesDue ∧ (s.slot slot.val).record.any (fun c => c.phase == .fadingOut) then
      ((s.setWork { s.work with fadesDue := s.work.fadesDue.filter (· != slot.val) }).completeFadeOut slot.val).advance
    else s))

/-- MASTER_FADE_END, for a master whose fade count ends at this frame start (R129). -/
def execMasterFadeEnd (master : Fin 4) (s : State) : Meaning :=
  .next (s.whenRunning (
    if master.val ∈ s.work.mastersDue then
      ((s.setWork { s.work with mastersDue := s.work.mastersDue.filter (· != master.val) }).completeMaster
        master.val).advance
    else s))

/-- CUE_FIRE (R178 to R182): the evaluation goes on to its next firing. -/
def execCueFire (s : State) : Meaning := .next (s.whenRunning s.evaluateToFire)

/-- PLATE_HOLD_EXPIRY, for a plate whose hold counter reaches its hold count at this frame start (R149). -/
def execPlateHoldExpiry (plate : Fin 8) (s : State) : Meaning :=
  .next (s.whenRunning (
    if plate.val ∈ s.work.platesDue then
      ((s.setWork { s.work with platesDue := s.work.platesDue.filter (· != plate.val) }).completePlate plate.val).advance
    else s))

/-- DISSOLVE_END, for a tile whose dissolve reaches its length at this frame start (R158). -/
def execDissolveEnd (tile : Fin 64) (s : State) : Meaning :=
  .next (s.whenRunning (
    if tile.val ∈ s.work.dissolvesDue then
      ((s.setWork { s.work with dissolvesDue := s.work.dissolvesDue.filter (· != tile.val) }).completeDissolve
        tile.val).advance
    else s))

/-- LINK_WAKE_COMPLETE, for a link whose wake count reaches its wake delay at this frame start (R162). -/
def execLinkWakeComplete (link : Fin 4) (s : State) : Meaning :=
  .next (s.whenRunning (
    if link.val ∈ s.work.wakesDue then
      ((s.setWork { s.work with wakesDue := s.work.wakesDue.filter (· != link.val) }).completeWake link.val).advance
    else s))

/-- RENDER_COMPLETE (R96). What is left of the application and the counts is taken first (log 4). -/
def execRenderComplete (s : State) : Meaning := .next (s.whenRunning s.settleRender)

/-- LINK_IDLE_EXPIRY, for a link whose idle count has reached its idle period at this render complete (R163). -/
def execLinkIdleExpiry (link : Fin 4) (s : State) : Meaning :=
  .next (s.whenRunning (
    if link.val ∈ s.work.idleDue then
      (s.setWork { s.work with idleDue := s.work.idleDue.filter (· != link.val) }).restLink link.val
    else s))

/-! ### Outputs and the frame-memory port -/

/-- LINE_FRAME_END (R139). -/
def execLineFrameEnd (line : Fin 8) (s : State) : Meaning :=
  .next (s.whenRunning (s.setLine line.val (s.line line.val).endFrame))

/-- TILE_PACKET_END (R160, R161). -/
def execTilePacketEnd (link : Fin 4) (s : State) : Meaning := .next (s.whenRunning (s.endPacket link.val))

/-- READ_COMPLETION: the memory brings the pixel words of one line (R150; log 11). -/
def execReadCompletion (words : List Word) (s : State) : Meaning := .next (s.whenRunning (s.completeRead words))

/-- READ_ERROR (R153). -/
def execReadError (s : State) : Meaning := .next (s.whenRunning s.failRead)

/-! ### Pins -/

/-- WLT_CHANGE (R130): the pin's level, sampled at the beginning of a render pass. -/
def execWltChange (asserted : Bool) (s : State) : Meaning := .next { s with wltPin := asserted }

/-- SIGNAL_PRESENT_CHANGE (R142): the input's status, sampled at a frame start. -/
def execSignalPresentChange (input : Fin 4) (present : Bool) (s : State) : Meaning :=
  .next (s.setInput input.val { s.input input.val with pin := present })

end Sys2Proof.Machine
end

