-- ==== Sys2Proof/Machine/Dispatch.lean ====
section
/-! DEFINITION. One arm for each row of spec/opcode_table.json, in the table's order. -/

namespace Sys2Proof.Machine

/-- The effect of a command or event on everything but the queue. -/
def exec (i : Instr) (s : State) : Host.Outcome State Fault Refusal :=
  match i with
  | .transactionBegin => Sys2Proof.Machine.execTransactionBegin s
  | .unknownCommand time bytes => Sys2Proof.Machine.execUnknownCommand time bytes s
  | .nop h => Sys2Proof.Machine.execNop h s
  | .readEvents h => Sys2Proof.Machine.execReadEvents h s
  | .setEventMask h mask => Sys2Proof.Machine.execSetEventMask h mask s
  | .softClear h => Sys2Proof.Machine.execSoftClear h s
  | .softClearComplete => Sys2Proof.Machine.execSoftClearComplete s
  | .setTiming h rate enable limit => Sys2Proof.Machine.execSetTiming h rate enable limit s
  | .setFrame h value => Sys2Proof.Machine.execSetFrame h value s
  | .readTiming h => Sys2Proof.Machine.execReadTiming h s
  | .setPoint h b => Sys2Proof.Machine.execSetPoint h b s
  | .setPointApply => Sys2Proof.Machine.execSetPointApply s
  | .bindPoint h point binding => Sys2Proof.Machine.execBindPoint h point binding s
  | .bindPointApply => Sys2Proof.Machine.execBindPointApply s
  | .loadCurve h curve knots => Sys2Proof.Machine.execLoadCurve h curve knots s
  | .loadCurveApply => Sys2Proof.Machine.execLoadCurveApply s
  | .defineGroup h b => Sys2Proof.Machine.execDefineGroup h b s
  | .readPoint h point => Sys2Proof.Machine.execReadPoint h point s
  | .readGroup h group => Sys2Proof.Machine.execReadGroup h group s
  | .readCurve h curve => Sys2Proof.Machine.execReadCurve h curve s
  | .setSource h b => Sys2Proof.Machine.execSetSource h b s
  | .setSupervision h interval => Sys2Proof.Machine.execSetSupervision h interval s
  | .touch h => Sys2Proof.Machine.execTouch h s
  | .readSource h target clear => Sys2Proof.Machine.execReadSource h target clear s
  | .take h b => Sys2Proof.Machine.execTake h b s
  | .takeApply => Sys2Proof.Machine.execTakeApply s
  | .release h address => Sys2Proof.Machine.execRelease h address s
  | .releaseApply => Sys2Proof.Machine.execReleaseApply s
  | .releaseSource h target => Sys2Proof.Machine.execReleaseSource h target s
  | .releaseSourceApply => Sys2Proof.Machine.execReleaseSourceApply s
  | .pause h address => Sys2Proof.Machine.execPause h address s
  | .pauseApply => Sys2Proof.Machine.execPauseApply s
  | .resume h address => Sys2Proof.Machine.execResume h address s
  | .resumeApply => Sys2Proof.Machine.execResumeApply s
  | .readContribution h address window => Sys2Proof.Machine.execReadContribution h address window s
  | .flush h target arrival => Sys2Proof.Machine.execFlush h target arrival s
  | .readQueue h first count => Sys2Proof.Machine.execReadQueue h first count s
  | .forceSet h selector mode value => Sys2Proof.Machine.execForceSet h selector mode value s
  | .forceSetApply => Sys2Proof.Machine.execForceSetApply s
  | .forceClear h selector => Sys2Proof.Machine.execForceClear h selector s
  | .forceClearApply => Sys2Proof.Machine.execForceClearApply s
  | .freeze h group => Sys2Proof.Machine.execFreeze h group s
  | .freezeApply => Sys2Proof.Machine.execFreezeApply s
  | .thaw h group => Sys2Proof.Machine.execThaw h group s
  | .thawApply => Sys2Proof.Machine.execThawApply s
  | .masterSet h master target fade => Sys2Proof.Machine.execMasterSet h master target fade s
  | .masterSetApply => Sys2Proof.Machine.execMasterSetApply s
  | .setWorklightLevel h level => Sys2Proof.Machine.execSetWorklightLevel h level s
  | .setWorklightLevelApply => Sys2Proof.Machine.execSetWorklightLevelApply s
  | .readOverrides h window => Sys2Proof.Machine.execReadOverrides h window s
  | .setLine h line enabled count rate => Sys2Proof.Machine.execSetLine h line enabled count rate s
  | .readLine h line clear => Sys2Proof.Machine.execReadLine h line clear s
  | .setInput h input enabled => Sys2Proof.Machine.execSetInput h input enabled s
  | .readInput h input clear => Sys2Proof.Machine.execReadInput h input clear s
  | .loadPlate h b => Sys2Proof.Machine.execLoadPlate h b s
  | .platePlay h plate => Sys2Proof.Machine.execPlatePlay h plate s
  | .platePlayApply => Sys2Proof.Machine.execPlatePlayApply s
  | .plateStop h plate => Sys2Proof.Machine.execPlateStop h plate s
  | .plateStopApply => Sys2Proof.Machine.execPlateStopApply s
  | .setTile h b => Sys2Proof.Machine.execSetTile h b s
  | .setTileApply => Sys2Proof.Machine.execSetTileApply s
  | .setLink h link wake idle => Sys2Proof.Machine.execSetLink h link wake idle s
  | .readTile h tile clear => Sys2Proof.Machine.execReadTile h tile clear s
  | .readLink h link clear => Sys2Proof.Machine.execReadLink h link clear s
  | .readPlate h plate clear window => Sys2Proof.Machine.execReadPlate h plate clear window s
  | .loadCue h b => Sys2Proof.Machine.execLoadCue h b s
  | .linkCue h list cue position => Sys2Proof.Machine.execLinkCue h list cue position s
  | .unlinkCue h cue => Sys2Proof.Machine.execUnlinkCue h cue s
  | .eraseCue h cue => Sys2Proof.Machine.execEraseCue h cue s
  | .setList h list acting loop => Sys2Proof.Machine.execSetList h list acting loop s
  | .startList h list => Sys2Proof.Machine.execStartList h list s
  | .stopList h list => Sys2Proof.Machine.execStopList h list s
  | .go h list => Sys2Proof.Machine.execGo h list s
  | .readCue h cue window => Sys2Proof.Machine.execReadCue h cue window s
  | .readList h list => Sys2Proof.Machine.execReadList h list s
  | .resetFall => Sys2Proof.Machine.execResetFall s
  | .resetRise => Sys2Proof.Machine.execResetRise s
  | .initialisationEnd time => Sys2Proof.Machine.execInitialisationEnd time s
  | .refPulse time => Sys2Proof.Machine.execRefPulse time s
  | .lossDeadline => Sys2Proof.Machine.execLossDeadline s
  | .localTimerExpiry => Sys2Proof.Machine.execLocalTimerExpiry s
  | .holdoverEnd => Sys2Proof.Machine.execHoldoverEnd s
  | .sourceLost source => Sys2Proof.Machine.execSourceLost source s
  | .fadeInComplete slot => Sys2Proof.Machine.execFadeInComplete slot s
  | .fadeOutComplete slot => Sys2Proof.Machine.execFadeOutComplete slot s
  | .masterFadeEnd master => Sys2Proof.Machine.execMasterFadeEnd master s
  | .cueFire => Sys2Proof.Machine.execCueFire s
  | .plateHoldExpiry plate => Sys2Proof.Machine.execPlateHoldExpiry plate s
  | .dissolveEnd tile => Sys2Proof.Machine.execDissolveEnd tile s
  | .linkWakeComplete link => Sys2Proof.Machine.execLinkWakeComplete link s
  | .renderComplete => Sys2Proof.Machine.execRenderComplete s
  | .linkIdleExpiry link => Sys2Proof.Machine.execLinkIdleExpiry link s
  | .lineFrameEnd line => Sys2Proof.Machine.execLineFrameEnd line s
  | .tilePacketEnd link => Sys2Proof.Machine.execTilePacketEnd link s
  | .readCompletion words => Sys2Proof.Machine.execReadCompletion words s
  | .readError => Sys2Proof.Machine.execReadError s
  | .wltChange asserted => Sys2Proof.Machine.execWltChange asserted s
  | .signalPresentChange input present => Sys2Proof.Machine.execSignalPresentChange input present s

end Sys2Proof.Machine
end

