-- ==== Sys2Proof/WellFormed.lean ====
section
/-! DEFINITION. Which terms of `Instr` stand for a stimulus the part can meet: raw fields that a frame can carry, and
event operands the outside can bring. `exec` is total and does not need it; statements about bytes do. -/

namespace Sys2Proof

/-- The modifier count is one byte (11.8). -/
def Header.wf (h : Header) : Bool := h.mods.length ≤ 255

/-- A code kept as unknown is none of the known ones. -/
def BindingField.wf : BindingField → Bool
  | .unknown c => 3 ≤ c.toNat
  | _ => true

def AddressField.wf : AddressField → Bool
  | .unknown c => 2 ≤ c.toNat
  | _ => true

def ReadAddressField.wf : ReadAddressField → Bool
  | .unknown c => 3 ≤ c.toNat
  | _ => true

def LevelField.wf : LevelField → Bool
  | .unknown c => 2 ≤ c.toNat
  | _ => true

def TriggerField.wf : TriggerField → Bool
  | .unknown c => 3 ≤ c.toNat
  | _ => true

def PositionField.wf : PositionField → Bool
  | .unknown c => 2 ≤ c.toNat
  | _ => true

def ActionField.wf : ActionField → Bool
  | .take b => b.value.wf
  | .forceSet _ _ v => v.wf
  | .unknown c => 12 ≤ c.toNat
  | _ => true

/-- Every action is well-formed, and one of an unknown kind, whose fields nobody knows, stands last. -/
def actionsWf : List ActionField → Bool
  | [] => true
  | [a] => a.wf
  | .unknown _ :: _ :: _ => false
  | a :: b :: rest => a.wf && actionsWf (b :: rest)

/-- An address of an unknown type, whose fields nobody knows, stands last. -/
def ReadAddressField.closes : ReadAddressField → Bool
  | .unknown _ => true
  | _ => false

/-- A present window is not the all-ones pattern that means absent, and fits its fields' widths. -/
def Window.wf (firstBits countBits : Nat) (w : Window) : Bool :=
  w.first.toNat < 2 ^ firstBits && w.count.toNat < 2 ^ countBits &&
    !(w.first.toNat == 2 ^ firstBits - 1 && w.count.toNat == 2 ^ countBits - 1)

/-- The body's own conditions, beside the header's. -/
def Instr.bodyWf : Instr → Bool
  | .bindPoint _ _ b => b.wf
  | .release _ a | .pause _ a | .resume _ a => a.wf
  | .readContribution _ a w => a.wf && w.all (Window.wf 16 16) && !(a.closes && w.isSome)
  | .readOverrides _ w => w.all (Window.wf 16 16)
  | .readPlate _ _ _ w => w.all (Window.wf 16 8)
  | .readCue _ _ w => w.all (Window.wf 8 8)
  | .loadPlate _ b => b.first.isSome == (b.part == 0)
  | .loadCue _ b => b.trigger.isSome == (b.mode == 0) && b.trigger.all TriggerField.wf && actionsWf b.actions
  | .linkCue _ _ _ p => p.wf
  | .readCompletion ws => ws.length ≤ 128
  | _ => true

/-- Well-formed: the header's count fits its byte, the body's length fits its two bytes, and the body is one a frame
can carry. -/
def Instr.wf (i : Instr) : Bool :=
  i.header?.all Header.wf && i.bodyBytes.length < 65536 && i.bodyWf

end Sys2Proof
end

