-- ==== Sys2Proof/Safety.lean ====
section
/-! DEFINITION. The terms statements about the part are made in: when a command frame reaches its own checks, what an
accepted and a refused frame leave, when an entry is the next one to be applied, and the bounds every state that a run
reaches keeps. -/

namespace Sys2Proof.Machine

/-- The frame of row `i` passes checks 1 to 7 of R186: a running part that is not BUSY, a length within 1,100 bytes, a
source 0..4, modifiers the command takes, and a body of the length its fixed fields ask for. -/
abbrev Admitted (s : State) (h : Header) (i : Instr) : Prop :=
  s.device = .running ∧ s.softClear = .none ∧ frameLength h i ≤ 1100 ∧ h.src ≤ 4 ∧
    modifierStatus i h (i.code?.getD 0) = none ∧ i.bodyLengthMatches = true

/-- As `Admitted`, but for the modifiers and the body (checks 1 to 4 of R186). -/
abbrev Received (s : State) (h : Header) (i : Instr) : Prop :=
  s.device = .running ∧ s.softClear = .none ∧ frameLength h i ≤ 1100 ∧ h.src ≤ 4

/-- The state in which a received frame meets its own checks: the transaction ended, its source reloaded (R185, R49). -/
def State.met (s : State) (h : Header) : State := (s.endTransaction h.time).reloadSource h.src

/-- The state in which the own checks of an admitted command are made: as `met`, with the work of the last frame start that
the command awaits done (R52, R77, R132, R183, R184). For a command that awaits none it is `met`. -/
def State.judged (s : State) (h : Header) (i : Instr) : State := (s.met h).awaited i

/-- What an accepted frame leaves: the state `t` of its effect with the reply OK, and the frame work it sets free. -/
def State.accepted (s : State) (h : Header) (i : Instr) (t : State) (clamped : Bool) (fields : List Byte) : State :=
  State.resume (s.endTransaction h.time) (t.replyWith (i.code?.getD 0) .ok clamped fields)

/-- What a refused frame leaves: the reload and the reply with the code, and nothing else of the command. -/
def State.refused (s : State) (h : Header) (i : Instr) (st : Status) : State :=
  State.resume (s.endTransaction h.time) ((s.met h).replyWith (i.code?.getD 0) st false [])

/-- As `refused`, of a command refused by its own checks where the work it awaits may have changed the state. -/
def State.refusedAt (s : State) (h : Header) (i : Instr) (st : Status) : State :=
  State.resume (s.endTransaction h.time) ((s.judged h i).replyWith (i.code?.getD 0) st false [])

/-- What an accepted frame-applied command other than TAKE leaves (R80, R81, R188): the entry at the back of the queue,
the arrival counter raised, and the reply with the effective frame, the arrival number and a handle where it has one. -/
def State.queued (s : State) (h : Header) (i : Instr) (eff : Word) (clamped : Bool) (body : EntryBody)
    (handle : Option Handle) : State :=
  s.accepted h i ((s.met h).enqueue h.src .command eff body) clamped (queuedFields eff s.arrival handle none)

/-- The queue has room and the effective frame of the command is `eff` (R82, R88). -/
abbrev Schedulable (s : State) (h : Header) (eff : Word) (clamped : Bool) : Prop :=
  effectiveFrame s.timer.counter h = some (eff, clamped) ∧ s.queue.length < 64

/-- Entry `e` is the next to be applied at the running frame start, and `rest` is the queue without it (R85). -/
abbrev DueFirst (s : State) (e : Entry) (rest : List Entry) : Prop :=
  s.device = .running ∧ takeFirstDue s.queue = some (e, rest)

/-- Every group has a stride of 1 to 64, an undefined group of 1 (R29). -/
abbrev Strided (s : State) : Prop := ∀ g < 128, 1 ≤ (s.group g).stride ∧ (s.group g).stride ≤ 64

/-- The bounds of R29, R80, R190 and R192: at most 64 entries wait, the mask has no bit above bit 12, no event count
passes 255, and every group has a stride of 1 to 64. -/
abbrev Bounded (s : State) : Prop :=
  s.queue.length ≤ 64 ∧ s.mask.toNat < 8192 ∧ (∀ k < 13, (s.event k).count ≤ 255) ∧ Strided s

/-- Every numbered store is in its one canonical form: its numbers rise strictly, and no listed record equals what its
number holds by default. Equal stores are then equal data. -/
structure Canonical (s : State) : Prop where
  points : s.points.wf Point.por = true
  occupancy : s.occupancy.wf Occupancy.por = true
  groups : s.groups.wf Group.por = true
  curves : s.curves.wf Curve.por = true
  results : s.results.wf Result.por = true
  sources : s.sources.wf Source.por = true
  slots : s.slots.wf Slot.por = true
  names : s.names.wf Name.por = true
  pool : s.pool.wf PoolWord.por = true
  forces : s.forces.wf Force.por = true
  freezes : s.freezes.wf Freeze.por = true
  masters : s.masters.wf Master.por = true
  lines : s.lines.wf Line.por = true
  inputs : s.inputs.wf Input.por = true
  tiles : s.tiles.wf Tile.por = true
  links : s.links.wf Link.por = true
  plates : s.plates.wf Plate.por = true
  descriptors : s.descriptors.wf Descriptor.por = true
  cues : s.cues.wf Cue.por = true
  actions : s.actions.wf ActionRecord.por = true
  lists : s.lists.wf CueList.por = true
  events : s.events.wf EventCell.por = true

/-- The occupancy map and the bindings agree (R21): a point's entry of every output its binding covers names it, and an
output that names a point is covered by that point's binding. -/
def OccupancyAgrees (s : State) : Prop :=
  ∀ p k, k ∈ (s.point p).binding.outputs ↔ s.occupant k = some p

end Sys2Proof.Machine
end

