-- ==== Sys2Proof/Certificates/Slice0/Obligations.lean ====
section
/-! DEFINITION. The statements of this row, from the numbered rules of spec/. Each docstring names the rules it formalises;
where a clause rests on a convention of the model, the assumption log entry it names says so. -/

open Sys2Proof Sys2Proof.Machine

/-- O1. For every state and every command i: where i is at the front of the waiting commands, step answers what exec
answers for i on the state with the rest of the queue; where no command waits, step answers the state unchanged (the
model's choice, log 2). (11.2 Command frames, 95 What each step holds, log 2 (DESIGN CHOICE)) -/
def Obligations.StepRunsTheFrontCommand : Prop :=
  (∀ (i : Instr) (rest : List Instr) (s : State), s.pending = i :: rest → step s = exec i { s with pending := rest }) ∧
    ∀ s : State, s.pending = [] → step s = .next s

/-- O2. For every command or event and every state exec answers a next state, never a fault or a refusal, and the queue
of waiting commands is the same in it. That no row stops the part is read from the spec (log 20, DEDUCED), and that
an event at a moment it cannot occur answers next, with nothing changed, is the model's choice (log 5); no rule says
either. (11.2 Command frames, 11.5 BUSY and the event set, 95 What each step holds, log 20 (DEDUCED), log 5 (DESIGN
CHOICE)) -/
def Obligations.EveryCommandAnswersANextState : Prop :=
  ∀ (i : Instr) (s : State), ∃ t, exec i s = .next t ∧ t.pending = s.pending

/-- O3. In the reset state: the Frame Timer at the POR column of R1, FREE_RUN at rate code 1 with the reference off,
holdover limit 1500, both periods 1080000, counter 0, every other count 0, no pulse, no pending value, the last
frame start at the present time; every point INTENSITY, home 0, curve 0, no master, offset 0, no member, unbound,
its results 0, and no output occupied; group 0 over all points and every other group undefined; every curve the
identity; the five sources at the rows of R38; interval 25; every slot FREE at generation 0; the Name Index empty;
the Level Pool's free list blocks 0 to 1023; sequence 0; queue empty, arrival counter 0, no last failure; no force,
freeze counts 0, masters STEADY at level and target 65535, work light 32768, WLT sample off; every line at the POR
column of R133, every input at that of R142, every tile at that of R154, every link at that of R160; plates
UNDEFINED, no load open, late counts 0, the descriptor free list 0 to 1023; cues EMPTY, the action free list 0 to
2047; both lists at the POR column of R169, A acting for source 1 and B for source 2; every event flag clear, every
count 0, every enable on, the reply buffer empty, BUSY low and ATTN# high. That the reset state is the part at the
end of its initialisation, with BUSY low, is the model's choice (log 1), and so is that a number beyond a store's
range reads as its records do (log 29). (R1, R3, R19, R21, R29, R34, R38, R45 (chapters 1 to 3), R53, R55, R66, R79
(chapter 4), R81, R95, R98, R118, R126, R133, R142, R144, R145, R154, R160, R166, R167, R169, R189, R190, R193, log
1 (DESIGN CHOICE), log 29 (DESIGN CHOICE)) -/
def Obligations.ResetLeavesThePorValues : Prop :=
  let r := State.reset
  (r.timer.state = .freeRun ∧ r.timer.cameFrom = .freeRun ∧ r.timer.rate = 1 ∧ r.timer.refEnable = false ∧
      r.timer.holdoverLimit = 1500 ∧ r.timer.holdoverCount = 0 ∧ r.timer.acquireCount = 0 ∧ r.timer.badRun = 0 ∧
      r.timer.heldPeriod = 1080000 ∧ r.timer.localPeriod = 1080000 ∧ r.timer.lastPulse = none ∧
      r.timer.lastInterval = none ∧ r.timer.lastFrameStart = r.now ∧ r.timer.unlockCause = .none ∧
      r.timer.counter = 0 ∧ r.timer.pendingFrame = none) ∧
    (∀ p, (r.point p).fields =
        { kind := .intensity, home := 0, curve := 0, master := none, offset := 0, member := false } ∧
      (r.point p).binding = .unbound ∧
      r.result p = { merged := 0, output := 0, winner := none, frozen := false, held := 0 }) ∧
    (∀ k, r.occupant k = none) ∧ (r.group 0 = ⟨0, 2560, 1⟩ ∧ ∀ g, 1 ≤ g → r.group g = ⟨0, 0, 1⟩) ∧
    (∀ c, r.curve c = identityCurve) ∧
    (∀ n < 5, (r.source n).live = 0 ∧ (r.source n).lossFade = 50 ∧ (r.source n).reload = 0 ∧
      (r.source n).counter = 0 ∧ (r.source n).state = .live ∧ (r.source n).applyFails = 0) ∧
    (List.range 5).map (fun n => ((r.source n).priority, (r.source n).ceiling, (r.source n).quota,
        (r.source n).mayForce)) =
      [(15, 15, 192, true), (8, 12, 64, true), (8, 12, 64, true), (8, 12, 64, false), (4, 8, 64, false)] ∧
    r.interval = 25 ∧ (∀ k, r.slot k = ⟨0, none⟩) ∧ (∀ o n, r.named o n = none) ∧ r.poolFree = List.range 1024 ∧
    r.sequence = 0 ∧ r.queue = [] ∧ r.arrival = 0 ∧ r.lastFailure = none ∧ (∀ p, r.force p = none) ∧
    (∀ g, r.freezeCount g = 0) ∧
    (∀ m, (r.master m).state = .steady ∧ (r.master m).level = 65535 ∧ (r.master m).target = 65535) ∧
    r.workLight = 32768 ∧ r.wltSample = false ∧
    (∀ l, r.line l =
      { enabled := false, count := 384, rate := 1, sequence := 0, inFlight := none, waiting := none, slips := 0,
        drops := 0 }) ∧
    (∀ i, (r.input i).enabled = true ∧ (r.input i).sample = false ∧ (r.input i).shown = false ∧
      (r.input i).losses = 0) ∧
    (∀ t, (r.tile t).fields = { enabled := false, link := 0, place := 0, cropX := 0, cropY := 0, dissolve := 0 } ∧
      (r.tile t).current = 0 ∧ (r.tile t).fromSource = none ∧ (r.tile t).elapsed = 0 ∧
      (r.tile t).params = ⟨65535, 65535, 65535, 65535, 0⟩ ∧ (r.tile t).currentStore = none ∧
      (r.tile t).fromStore = none ∧ (∀ k, (r.tile t).lastSent.get Image.black k = Pixel.black) ∧
      (r.tile t).fetchLate = 0) ∧
    (∀ l, r.link l =
      { state := .standby, wakeDelay := 20, idlePeriod := 0, wakeCount := 0, idleCount := 0, sequence := 0,
        inFlight := none, waiting := none, slips := 0, drops := 0 }) ∧
    (∀ p, (r.plate p).state = .undefined ∧ (r.plate p).loadOpen = false ∧ (r.plate p).late = 0) ∧
    r.descriptorFree = List.range 1024 ∧ (∀ c, (r.cue c).state = .empty) ∧ r.actionFree = List.range 2048 ∧
    (∀ l < 2, r.list l =
      { state := .stopped, first := none, tail := none, head := none, acting := l + 1, loop := 0, passes := 0,
        lastFire := 0, goPending := false, lastLate := none }) ∧
    (∀ k, r.event k = ⟨false, 0⟩) ∧ (∀ k < 13, r.mask.getLsbD k = true) ∧ r.reply = [] ∧ r.busy = false ∧
    r.attention = false

/-- O4. The reset state has at most 64 waiting entries, no event count above 255, no mask bit above bit 12 and a stride
of 1 to 64 in every group; every numbered store is in its canonical form; and an output of the occupancy map names
exactly the point whose binding covers it. The canonical form of a store is the model's choice (log 29), which no rule
gives; the agreement of occupancy and bindings is R21. (R21, R29, R80, R190, R192, log 29 (DESIGN CHOICE)) -/
def Obligations.ResetMeetsTheInvariants : Prop :=
  Bounded State.reset ∧ Canonical State.reset ∧ OccupancyAgrees State.reset

/-- O5. For every state that meets the bounds (at most 64 waiting entries, no mask bit above bit 12, no event count
above 255, a stride of 1 to 64 in every group), reached by a run or not, and every command or event at the front of its
queue: if step answers a next state, that state meets the bounds too. (R29, R31, R80, R88, R178, R190, R192) -/
def Obligations.EveryStepKeepsTheBounds : Prop :=
  ∀ s t : State, Bounded s → step s = .next t → Bounded t

/-- O6. For every state whose numbered stores (points, occupancy, groups, curves, results, sources, slots, names, Level
Pool, forces, freezes, masters, lines, inputs, tiles, links, plates, descriptors, cues, actions, lists, events) are
in canonical form, reached by a run or not, and every command or event at the front of its queue: if step answers a
next state, its stores are in canonical form too. The form is the model's: equal stores are equal data. The form
itself is log 29, a DESIGN CHOICE; no rule of the spec gives it. (00_scope Functional overview, log 29 (DESIGN
CHOICE)) -/
def Obligations.EveryStepKeepsTheStoresCanonical : Prop :=
  ∀ s t : State, Canonical s → step s = .next t → Canonical t

/-- O7. For every well-formed command row with header h whose frame has at most 1100 bytes: encodeFrame gives bytes that
split into the row's code, h's source, h's modifiers and the row's body bytes, and that body decodes to the row. The
layouts of bodies that 11.8 does not tabulate, and of bodies with an unknown code, are the model's choice (logs 9
and 36). (11.8 Formats, R188, 11.7 Command summary, log 9 (DESIGN CHOICE), log 36 (DESIGN CHOICE)) -/
def Obligations.FramesAndRowsRoundTrip : Prop :=
  ∀ (i : Instr) (h : Header), i.header? = some h → i.wf = true → frameLength h i ≤ 1100 →
    ∃ c bs, i.code? = some c ∧ encodeFrame i = some bs ∧ splitFrame bs = some ⟨c, h.source, h.mods, i.bodyBytes⟩ ∧
      decodeBody h c i.bodyBytes = some i

/-- O8. For every well-formed command row whose frame has at most 1100 bytes and every state: exec on the row of raw
clocked bytes, given the bytes of the frame at the same time, answers what exec on the command row answers. Bytes 0
clocked behind the frame change nothing of that, as long as the frame itself is whole. The row of raw bytes, and a
command row that stands for a whole transaction, are the model's (log 3); the body encoding where 11.8 gives none is
log 9, and with an unknown code log 36. (R186, 11.8 Formats, log 3 (DESIGN CHOICE), log 9 (DESIGN CHOICE), log 36
(DESIGN CHOICE)) -/
def Obligations.ClockedBytesAndRowsAgree : Prop :=
  ∀ (i : Instr) (h : Header) (bs : List Byte) (extra : Nat) (s : State), i.header? = some h → i.wf = true →
    frameLength h i ≤ 1100 → encodeFrame i = some bs →
    exec (.unknownCommand h.time (bs ++ List.replicate extra 0)) s = exec i s

/-- O9. For every state and header: before its own checks, and before the work of the last frame start that a command
may await (log 4), a frame changes the transaction mark, the two reply buffers, the latest time, its source's counter
and state and, for a LOST source, the SOURCE_BACK event, and no other item of state. Its source is LIVE with its counter
at the reload; the other sources are as they were. An accepted frame leaves exactly its effect and its reply where it
takes no due entry and no outstanding tick away and gives no source whose tick is outstanding another counter; a source
with an outstanding tick to which it gives another counter than 1 ends one lower, the tick taken (the frame taken
first). Where a frame start comes in the same step, what is left of the last one takes the one outstanding tick the same
way: from a loaded counter it falls by one, and from a counter of 1 the source is lost. The reply buffer emptied at the
latch is log 23, the latch at a row without a fall before it log 3, the clamped time log 6, and the outstanding ticks
logs 4 and 21: the model's, not the rules'. (R49, R50, R185, log 3 (DESIGN CHOICE), log 4 (DESIGN CHOICE), log 6 (DESIGN
CHOICE), log 21 (DEDUCED), log 23 (DEDUCED)) -/
def Obligations.TheReloadLeavesTheRestOfThePart : Prop :=
  ∀ (s : State) (h : Header),
    (s.met h =
      { s with
        transaction := false
        outgoing := if s.transaction then s.outgoing else s.reply
        reply := if s.transaction then s.reply else []
        now := max s.now h.time
        sources := (s.met h).sources
        events := if (s.source h.src).state = .lost then (s.raise .sourceBack).events else s.events }) ∧
    (∀ n, n ≠ h.src → (s.met h).source n = s.source n) ∧
    (s.met h).source h.src = { s.source h.src with counter := (s.source h.src).reload, state := .live } ∧
    (∀ n, s.noneDue = true → s.work.lossDue = [n] →
      ((s.source n).counter ≠ 1 →
        s.settleApplication = (s.setWork { s.work with lossDue := [] }).setSource n
          { s.source n with counter := (s.source n).counter - 1 }) ∧
      ((s.source n).counter = 1 → s.settleApplication = s.loseSource n)) ∧
    ∀ (i : Instr) (t : State) (clamped : Bool) (fields : List Byte),
      (s.work.lossDue.length ≤ t.work.lossDue.length →
        (s.queue.filter Entry.due).length ≤ (t.queue.filter Entry.due).length →
        (∀ n ∈ t.work.lossDue, (t.source n).counter = (s.source n).counter) →
        s.accepted h i t clamped fields = t.replyWith (i.code?.getD 0) .ok clamped fields) ∧
      ∀ n < 5, n ∈ t.work.lossDue → (t.source n).counter ≠ (s.source n).counter → (t.source n).counter ≠ 1 →
        (s.accepted h i t clamped fields).source n = { t.source n with counter := (t.source n).counter - 1 }

/-- O10. Going on with a frame start's work (counting, and the beginning of the render pass) changes contribution slots,
masters, plates, tiles, links, live inputs, the fetch list, the WLT sample and the model's own work marks, and no
other item of state. It goes on exactly where nothing is left before it. With the application of the frame start in
progress, no due entry left and no loss outstanding, each of the 192 slots, 4 masters, 8 plates, 64 tiles and 4 links
is counted once and no other item of state changes; a count that ends joins the ends of its kind that are due, in
ascending number; and where none is due the render pass begins at once. While ends are due the counting waits for
them, and once none is the render pass begins. With a due entry or a loss outstanding, with a render in progress or
with no frame work outstanding, nothing changes. When the counts and the render pass begin, and the marks, are the
model's choice (log 4), and the order of the ends is log 14 (DEDUCED). (R72, R96, R129, R149, R158, R162, log 4 (DESIGN
CHOICE), log 14 (DEDUCED)) -/
def Obligations.TheFramesOwnWorkLeavesTheRest : Prop :=
  ∀ s : State,
    (s.advance =
      { s with
        slots := s.advance.slots
        masters := s.advance.masters
        plates := s.advance.plates
        tiles := s.advance.tiles
        links := s.advance.links
        inputs := s.advance.inputs
        fetches := s.advance.fetches
        wltSample := s.advance.wltSample
        work := s.advance.work }) ∧
    (s.work.phase = .rendering ∨ s.work.phase = .idle → s.advance = s) ∧
    (s.work.phase = .applying → s.noneDue = false ∨ s.work.lossDue ≠ [] → s.advance = s) ∧
    (∀ w : Work, w.counted = true ↔
      w.fadesDue = [] ∧ w.mastersDue = [] ∧ w.platesDue = [] ∧ w.dissolvesDue = [] ∧ w.wakesDue = []) ∧
    (s.work.phase = .counting →
      (s.work.counted = true → s.advance = s.beginRender) ∧ (s.work.counted = false → s.advance = s)) ∧
    (s.work.phase = .applying → s.noneDue = true → s.work.lossDue = [] →
      ∃ u : State,
        u = { s with
          slots := u.slots, masters := u.masters, plates := u.plates, tiles := u.tiles, links := u.links
          work := { s.work with
            phase := .counting
            fadesDue := s.work.fadesDue ++
              (List.range 192).filter fun k => (s.countFade k).work.fadesDue != s.work.fadesDue
            mastersDue := s.work.mastersDue ++
              (List.range 4).filter fun m => (s.countMaster m).work.mastersDue != s.work.mastersDue
            platesDue := s.work.platesDue ++
              (List.range 8).filter fun p => (s.countPlate p).work.platesDue != s.work.platesDue
            dissolvesDue := s.work.dissolvesDue ++
              (List.range 64).filter fun k => (s.countDissolve k).work.dissolvesDue != s.work.dissolvesDue
            wakesDue := s.work.wakesDue ++
              (List.range 4).filter fun l => (s.countWake l).work.wakesDue != s.work.wakesDue } } ∧
        (∀ k, u.slot k = if k < 192 then (s.countFade k).slot k else s.slot k) ∧
        (∀ m, u.master m = if m < 4 then (s.countMaster m).master m else s.master m) ∧
        (∀ p, u.plate p = if p < 8 then (s.countPlate p).plate p else s.plate p) ∧
        (∀ k, u.tile k = if k < 64 then (s.countDissolve k).tile k else s.tile k) ∧
        (∀ l, u.link l = if l < 4 then (s.countWake l).link l else s.link l) ∧
        s.advance = if u.work.counted then u.beginRender else u)

/-- O11. For every command row with header h: while RESET# is low the frame changes nothing. A BUSY part answers BUSY
with no more than the reload of a source 0..4 (no reload where the frame is over 1100 bytes). A running part answers
an over-long frame BAD_LENGTH and a source above 4 RANGE, each without a reload; a received frame with a modifier
problem takes the reload and that status, and one whose body length does not match takes the reload and RANGE.
(R186, R187, R189, R193) -/
def Obligations.FramesThatFailACheckAreAnswered : Prop :=
  ∀ (i : Instr) (h : Header) (s : State), i.header? = some h →
    (s.device = .resetLow → exec i s = .next s) ∧
    (s.device ≠ .resetLow → s.busy = true → frameLength h i ≤ 1100 → h.src ≤ 4 →
      exec i s = .next (s.refused h i .busy)) ∧
    (s.device ≠ .resetLow → s.busy = true → 1100 < frameLength h i ∨ 4 < h.src →
      exec i s = .next ((s.endTransaction h.time).replyWith (i.code?.getD 0) .busy false [])) ∧
    (s.device = .running → s.softClear = .none → 1100 < frameLength h i →
      exec i s = .next ((s.endTransaction h.time).replyWith (i.code?.getD 0) .badLength false [])) ∧
    (s.device = .running → s.softClear = .none → frameLength h i ≤ 1100 → 4 < h.src →
      exec i s = .next ((s.endTransaction h.time).replyWith (i.code?.getD 0) .range false [])) ∧
    (∀ st, Received s h i → modifierStatus i h (i.code?.getD 0) = some st → exec i s = .next (s.refused h i st)) ∧
    (Received s h i → modifierStatus i h (i.code?.getD 0) = none → i.bodyLengthMatches = false →
      exec i s = .next (s.refused h i .range))

/-- O12. For every admitted SET_TIMING, SET_FRAME, SET_POINT, BIND_POINT, LOAD_CURVE, DEFINE_GROUP, SET_SOURCE,
SET_SUPERVISION, SET_WORKLIGHT_LEVEL, SET_LINE, SET_INPUT, LOAD_PLATE, SET_TILE, SET_LINK and SET_LIST from a source
2, 3 or 4, whatever its body: the answer is NOT_PERMITTED and nothing of the command is done. That the refusal of a
clamped command has no CLAMPED mark is log 41. (11.7 Command summary, R13, R14, R23, R25, R31, R35, R41, R45, R131,
R134, R143, R146, R155, R164, R175, log 41 (DESIGN CHOICE)) -/
def Obligations.ConfigurationIsRefusedFromTheDesks : Prop :=
  ∀ (s : State) (h : Header) (i : Instr), 2 ≤ h.src → Admitted s h i →
    ((∃ r e l, i = .setTiming h r e l) ∨ (∃ v, i = .setFrame h v) ∨ (∃ b, i = .setPoint h b) ∨
      (∃ p b, i = .bindPoint h p b) ∨ (∃ c ks, i = .loadCurve h c ks) ∨ (∃ b, i = .defineGroup h b) ∨
      (∃ b, i = .setSource h b) ∨ (∃ n, i = .setSupervision h n) ∨ (∃ v, i = .setWorklightLevel h v) ∨
      (∃ l e c r, i = .setLine h l e c r) ∨ (∃ n e, i = .setInput h n e) ∨ (∃ b, i = .loadPlate h b) ∨
      (∃ b, i = .setTile h b) ∨ (∃ l w d, i = .setLink h l w d) ∨ (∃ l a p, i = .setList h l a p)) →
    exec i s = .next (s.refused h i .notPermitted)

/-- O13. For every admitted frame: NOP changes nothing more and replies OK without fields; READ_EVENTS replies with
every flag, every count, the mask and the frame counter as they stand and then clears every flag and count;
SOFT_CLEAR from SAFETY begins the soft clear and replies OK, and from another source is refused NOT_PERMITTED. The
byte layout of the READ_EVENTS reply is the model's choice (log 10). (R185, R191, R194, R188, log 10 (DESIGN
CHOICE)) -/
def Obligations.NopReadEventsAndSoftClearComplete : Prop :=
  ∀ (s : State) (h : Header),
    (Admitted s h (.nop h) → exec (.nop h) s = .next (s.accepted h (.nop h) (s.met h) false [])) ∧
    (Admitted s h (.readEvents h) →
      exec (.readEvents h) s = .next (s.accepted h (.readEvents h) { s.met h with events := .empty } false
        ((List.range 13).flatMap (fun k => mark ((s.met h).event k).pending) ++
          (List.range 13).flatMap (fun k => u8 ((s.met h).event k).count) ++ be16 s.mask ++ be32 s.timer.counter))) ∧
    (Admitted s h (.softClear h) → h.src = 0 →
      exec (.softClear h) s = .next (s.accepted h (.softClear h) (s.met h).beginSoftClear false [])) ∧
    (Admitted s h (.softClear h) → h.src ≠ 0 → exec (.softClear h) s = .next (s.refused h (.softClear h) .notPermitted))

/-- O14. For every state with canonical stores: after the beginning of a SOFT_CLEAR every event is clear, every source
is LIVE with its counter at its reload and no apply-fail count, both lists are STOPPED with the head at the first
cue and no GO pending, every line's and link's slip and drop counts are 0, no tile has a from source, an e or a
fetch-late count, every defined plate is STOPPED at (0, 0) with its clip, no late count is above 0 and no load is
open, the descriptors of loads that were open on UNDEFINED plates stand at the back of the free list, by ascending
plate, and no others have joined it, every cue in a list is ARMED, no cue is marked late, no list has a late record
and each has the passes of its loop; outside a frame start's own counts every input's loss count is 0; while a
render is in progress the record clear waits and the queue stands, and otherwise the queue is empty, every slot is
FREE, every live count is 0, every force is gone, every freeze count is 0, every master is STEADY at 65535, every
Level Pool block is free, both counters are 0 and there is no last failure. For every state and every slot that
holds a record: after it is freed the slot is FREE with its generation one higher modulo 256, so its old handle
matches nothing; its chain stands at the back of the free list; its owner's live count is one lower; a FADING_IN or
HELD record with a name leaves the Name Index, another record leaves the index as it was; every other slot and
source, every other name of the Name Index and every other item of state is as before. That the plates are taken in
ascending order is log 14 (DEDUCED). That a load open on a defined plate, log 28's case of FAULT, is closed with the
clip and its descriptors kept is log 28 (DEDUCED); that start, length and elapsed of a STEADY master are 0 is log 1.
Where no render is in progress the frame work set free goes on (log 4). (R40, R54, R58, R66, R75, R44, R79, R95,
R133, R142, R144, R154, R160, R166, R169, R190, R194, log 1 (DESIGN CHOICE), log 4 (DESIGN CHOICE), log 14
(DEDUCED), log 28 (DEDUCED)) -/
def Obligations.RecordsAreFreedAndCleared : Prop :=
  (∀ s : State, Canonical s →
      let t := s.beginSoftClear
      (∀ k, t.event k = ⟨false, 0⟩) ∧
      (∀ n, (t.source n).state = .live ∧ (t.source n).counter = (s.source n).reload ∧ (t.source n).applyFails = 0) ∧
      (∀ l, t.list l =
        { s.list l with
          state := .stopped, head := (s.list l).first, passes := if (s.list l).loop = 255 then 0 else (s.list l).loop,
          goPending := false, lastLate := none }) ∧
      (∀ l, t.line l = { s.line l with slips := 0, drops := 0 }) ∧ (∀ l, (t.link l).slips = 0 ∧ (t.link l).drops = 0) ∧
      (s.work.phase = .rendering ∨ s.work.phase = .idle → ∀ i, t.input i = { s.input i with losses := 0 }) ∧
      (∀ k, (t.tile k).fromSource = none ∧ (t.tile k).elapsed = 0 ∧ (t.tile k).fetchLate = 0) ∧
      (∀ p < 8, (t.plate p).late = 0 ∧ (t.plate p).loadOpen = false ∧
        ((s.plate p).state ≠ .undefined → (t.plate p).state = .stopped ∧ (t.plate p).image = 0 ∧ (t.plate p).held = 0 ∧
          (t.plate p).clip = (s.plate p).clip) ∧
        ((s.plate p).state = .undefined → (t.plate p).state = .undefined ∧
          ((s.plate p).loadOpen = true → ∀ d ∈ (s.plate p).clip, d ∈ t.descriptorFree))) ∧
      t.descriptorFree = s.descriptorFree ++ (List.range 8).flatMap (fun p =>
        if (s.plate p).state = .undefined ∧ (s.plate p).loadOpen = true then (s.plate p).clip else []) ∧
      (∀ c, t.cue c =
        { s.cue c with state := if (s.cue c).inList then .armed else (s.cue c).state, late := false }) ∧
      (s.work.phase = .rendering → t.softClear = .waiting ∧ t.queue = s.queue ∧ t.slots = s.slots ∧
        t.lastFailure = s.lastFailure) ∧
      (s.work.phase ≠ .rendering → t.softClear = .cleared ∧ t.queue = [] ∧ (∀ k, (t.slot k).record = none) ∧
        t.lastFailure = none ∧ (∀ n, (t.source n).live = 0) ∧
        (∀ p, t.force p = none) ∧ (∀ g, t.freezeCount g = 0) ∧ (∀ m, t.master m = Master.por m) ∧
        t.poolFree = List.range 1024 ∧ t.sequence = 0 ∧ t.arrival = 0)) ∧
  (∀ (s : State) (k : Nat) (c : Contribution), (s.slot k).record = some c →
      let t := s.free k
      t.slot k = ⟨((s.slot k).gen + 1) % 256, none⟩ ∧ (∀ g, t.matching ⟨k, g⟩ = none) ∧
      t.poolFree = s.poolFree ++ c.chain ∧ (t.source c.owner) = { s.source c.owner with live := (s.source c.owner).live - 1 } ∧
      (c.name ≠ 0 ∧ (c.phase = .fadingIn ∨ c.phase = .held) → t.named c.owner c.name = none) ∧
      (c.name = 0 ∨ c.phase = .pending ∨ c.phase = .fadingOut → t.names = s.names) ∧
      (c.name < 4096 → ∀ o n, n < 4096 → (o, n) ≠ (c.owner, c.name) → t.named o n = s.named o n) ∧
      (∀ j, j ≠ k → t.slot j = s.slot j) ∧ (∀ n, n ≠ c.owner → t.source n = s.source n) ∧
      t = { s with slots := t.slots, names := t.names, poolFree := t.poolFree, sources := t.sources })

/-- O15. For every received SET_EVENT_MASK frame: its body is the 16-bit word and it takes no modifiers (a frame with
one is answered MODIFIER_INVALID); from a source above 1 it is refused NOT_PERMITTED; with a bit 13 to 15 set it is
refused RANGE; otherwise it stores the mask, replies OK with it, changes no flag and no count, and ATTN# is low
exactly where a flag whose bit is in the new mask is set. (R192) -/
def Obligations.SetEventMaskStoresTheMask : Prop :=
  ∀ (s : State) (h : Header) (m : Half), (Instr.setEventMask h m).bodyBytes = be16 m ∧
    (Received s h (.setEventMask h m) → h.mods ≠ [] →
      exec (.setEventMask h m) s = .next (s.refused h (.setEventMask h m) .modifierInvalid)) ∧
    (Received s h (.setEventMask h m) → h.mods = [] →
      (2 ≤ h.src → exec (.setEventMask h m) s = .next (s.refused h (.setEventMask h m) .notPermitted)) ∧
      (h.src ≤ 1 → (m.getLsbD 13 || m.getLsbD 14 || m.getLsbD 15) = true →
        exec (.setEventMask h m) s = .next (s.refused h (.setEventMask h m) .range)) ∧
      (h.src ≤ 1 → (m.getLsbD 13 || m.getLsbD 14 || m.getLsbD 15) = false →
        ∃ t, t = s.accepted h (.setEventMask h m) { s.met h with mask := m } false (be16 m) ∧
          exec (.setEventMask h m) s = .next t ∧ t.mask = m ∧ (∀ k, t.event k = (s.met h).event k) ∧
          t.attention = (List.range 13).any fun k => (t.event k).pending && m.getLsbD k))

/-- O16. For every state with RESET# not low ATTN# is low exactly where some kind 0..12 has its flag set and its enable
on, and with RESET# low it is high. Raising a kind sets its flag, raises its count by one up to 255 and leaves the
other kinds alone; with its enable on, ATTN# is then low. (R190, R193) -/
def Obligations.AttentionFollowsFlagsAndMask : Prop :=
  ∀ (s : State) (k : EventKind),
    (s.device ≠ .resetLow →
      (s.attention = true ↔ ∃ j < 13, (s.event j).pending = true ∧ s.mask.getLsbD j = true)) ∧
    (s.device = .resetLow → s.attention = false) ∧
    ((s.raise k).event k.number).pending = true ∧
    ((s.event k.number).count ≤ 255 →
      ((s.raise k).event k.number).count = min 255 ((s.event k.number).count + 1)) ∧
    (∀ j, j ≠ k.number → (s.raise k).event j = s.event j) ∧
    (s.device ≠ .resetLow → s.mask.getLsbD k.number = true → (s.raise k).attention = true)

/-- O17. For every received TOUCH frame from any source 0..4: it has no body, and with a modifier is answered
MODIFIER_INVALID; otherwise its only effect is the reload (its source is LIVE; the counter is at the reload;
SOURCE_BACK where it was LOST), and its reply is OK with the revived mark, the counter after the reload and the
frame counter. (R51) -/
def Obligations.TouchReloadsItsSource : Prop :=
  ∀ (s : State) (h : Header), (Instr.touch h).bodyBytes = [] ∧
    (Received s h (.touch h) → h.mods ≠ [] → exec (.touch h) s = .next (s.refused h (.touch h) .modifierInvalid)) ∧
    (Received s h (.touch h) → h.mods = [] →
      exec (.touch h) s = .next (s.accepted h (.touch h) (s.met h) false
        (mark ((s.source h.src).state == .lost) ++ u8 ((s.met h).source h.src).counter ++ be32 s.timer.counter)) ∧
      ((s.met h).source h.src).state = .live ∧
      ((s.met h).source h.src).counter = (s.source h.src).reload ∧
      (s.met h).events = if (s.source h.src).state = .lost then (s.raise .sourceBack).events else s.events)

/-- O18. For every admitted frame: SET_FRAME from source 0 or 1 stores its value as the pending frame, replies with the
present counter and changes nothing else of the timer; READ_TIMING from every source changes no table and replies
with the timer's state. For every admitted SET_TIMING from source 0 or 1 with a rate code 0..6 and an enable code 0
or 1, no holdover expiry being outstanding: with the rate kept and the reference not switched off, the three fields
are stored and nothing else of the timer changes; otherwise the timer is in FREE_RUN with both periods at the new
nominal period and its counts, last pulse and last interval cleared, the unlock cause COMMAND where it was LOCKED.
Where the last frame start time plus the new period is before the time of the frame (the example of R13), that same
step also issues the frame start at that time. That SET_TIMING replies no field is log 10. A time before the latest
reads as the latest (log 6), the frame start is issued in the step that sets the period, and an instant equal to the
present is left to the local timer (log 7, DEDUCED): the model's choices. (R14, R18, R3, R13, log 6 (DESIGN CHOICE),
log 7 (DEDUCED), log 10 (DESIGN CHOICE)) -/
def Obligations.StudioTimeCommandsComplete : Prop :=
  (∀ (s : State) (h : Header),
      (∀ v, Admitted s h (.setFrame h v) → h.src ≤ 1 →
        exec (.setFrame h v) s = .next (s.accepted h (.setFrame h v)
          ((s.met h).setTimer { s.timer with pendingFrame := some v }) false (be32 s.timer.counter))) ∧
      (Admitted s h (.readTiming h) →
        exec (.readTiming h) s = .next (s.accepted h (.readTiming h) (s.met h) false (s.met h).timingBytes))) ∧
  (∀ (s : State) (h : Header) (r e : Byte) (l : Half) (on : Bool), Admitted s h (.setTiming h r e l) → h.src ≤ 1 →
      r.toNat ≤ 6 → onOff e = some on → s.timer.expiryDue = false →
      (r.toNat = s.timer.rate → (s.timer.refEnable = true → on = true) →
        exec (.setTiming h r e l) s = .next (s.accepted h (.setTiming h r e l)
          ((s.met h).setTimer { s.timer with rate := r.toNat, refEnable := on, holdoverLimit := l.toNat }) false [])) ∧
      (r.toNat ≠ s.timer.rate ∨ (s.timer.refEnable = true ∧ on = false) →
        let u := (s.met h).setTimer
          { s.timer with
            rate := r.toNat, refEnable := on, holdoverLimit := l.toNat, state := .freeRun,
            unlockCause := if s.timer.state = .locked then .command else s.timer.unlockCause,
            heldPeriod := nominalPeriod r.toNat, localPeriod := nominalPeriod r.toNat, acquireCount := 0, badRun := 0,
            holdoverCount := 0, lastPulse := none, lastInterval := none, expiryDue := false }
        (max s.now h.time ≤ s.timer.lastFrameStart + nominalPeriod r.toNat →
          exec (.setTiming h r e l) s = .next (s.accepted h (.setTiming h r e l) u false [])) ∧
        (s.timer.lastFrameStart + nominalPeriod r.toNat < max s.now h.time →
          exec (.setTiming h r e l) s =
            .next (s.accepted h (.setTiming h r e l) (u.frameStart (max s.now h.time)) false []))))

/-- O19. For every admitted DEFINE_GROUP from source 0 or 1 of a group 1..127: with a count 1..2560, a stride 1..64 and
every point within 0..2559 a group that is not in use takes the definition; with count 0 a group that is not in use
becomes undefined; the reply carries the stored definition. Both frames are refused IN_USE on a group in use, and
NOT_PERMITTED on group 0. For every admitted frame: READ_POINT of a point 0..2559 replies with its configuration,
binding, force and the results of the last render; READ_GROUP of a group 0..127 with its definition, freeze count
and in-use mark, set for group 0; READ_CURVE of a curve 0..7 with its knot outputs. A number above the range is
refused RANGE. The bytes of the binding, and of the value and owner of a force that is NONE, are log 10. (R31, R36,
R37, log 10 (DESIGN CHOICE)) -/
def Obligations.GroupAndPointReadsComplete : Prop :=
  (∀ (s : State) (h : Header) (b : DefineGroupBody), Admitted s h (.defineGroup h b) → h.src ≤ 1 →
      (b.group = 0 → exec (.defineGroup h b) s = .next (s.refused h (.defineGroup h b) .notPermitted)) ∧
      (1 ≤ b.group.toNat → b.group.toNat ≤ 127 → 1 ≤ b.count.toNat → b.count.toNat ≤ 2560 → 1 ≤ b.stride.toNat →
        b.stride.toNat ≤ 64 → b.base.toNat + b.count.toNat * b.stride.toNat ≤ 2560 →
        (s.groupInUse b.group.toNat = false →
          exec (.defineGroup h b) s = .next (s.accepted h (.defineGroup h b)
            ((s.met h).setGroup b.group.toNat ⟨b.base.toNat, b.count.toNat, b.stride.toNat⟩) false
            (u16 b.base.toNat ++ u16 b.count.toNat ++ u8 b.stride.toNat))) ∧
        (s.groupInUse b.group.toNat = true →
          exec (.defineGroup h b) s = .next (s.refused h (.defineGroup h b) .inUse))) ∧
      (1 ≤ b.group.toNat → b.group.toNat ≤ 127 → b.count = 0 →
        (s.groupInUse b.group.toNat = false →
          exec (.defineGroup h b) s = .next (s.accepted h (.defineGroup h b)
            ((s.met h).setGroup b.group.toNat ⟨0, 0, 1⟩) false (u16 0 ++ u16 0 ++ u8 1))) ∧
        (s.groupInUse b.group.toNat = true →
          exec (.defineGroup h b) s = .next (s.refused h (.defineGroup h b) .inUse)))) ∧
  (∀ (s : State) (h : Header),
      (∀ p : Half, Admitted s h (.readPoint h p) →
        (2559 < p.toNat → exec (.readPoint h p) s = .next (s.refused h (.readPoint h p) .range)) ∧
        (p.toNat ≤ 2559 → exec (.readPoint h p) s = .next (s.accepted h (.readPoint h p) (s.met h) false
          (u8 (s.point p.toNat).fields.kind.code ++ (s.point p.toNat).binding.bytes ++
            u16 (s.point p.toNat).fields.home ++ u8 (s.point p.toNat).fields.curve ++
            opt8 (s.point p.toNat).fields.master ++ i16 (s.point p.toNat).fields.offset ++
            mark (s.point p.toNat).fields.member ++ forceBytes (s.force p.toNat) ++ present32 s.renderFrame ++
            u16 (s.result p.toNat).merged ++ u16 (s.result p.toNat).output ++ mark (s.result p.toNat).frozen ++
            handleBytes (s.result p.toNat).winner)))) ∧
      (∀ g : Byte, Admitted s h (.readGroup h g) →
        (127 < g.toNat → exec (.readGroup h g) s = .next (s.refused h (.readGroup h g) .range)) ∧
        (g.toNat ≤ 127 → exec (.readGroup h g) s = .next (s.accepted h (.readGroup h g) (s.met h) false
          (u16 (s.group g.toNat).base ++ u16 (s.group g.toNat).count ++ u8 (s.group g.toNat).stride ++
            u8 (s.freezeCount g.toNat) ++ mark (g.toNat == 0 || s.groupInUse g.toNat))))) ∧
      (∀ c : Byte, Admitted s h (.readCurve h c) →
        (7 < c.toNat → exec (.readCurve h c) s = .next (s.refused h (.readCurve h c) .range)) ∧
        (c.toNat ≤ 7 → exec (.readCurve h c) s = .next (s.accepted h (.readCurve h c) (s.met h) false
          ((s.curve c.toNat).flatMap u16)))))

/-- O20. For every admitted frame: SET_SOURCE from source 0 or 1 on another target than SAFETY, with its fields in
range, a quota not below the live count and no contribution above the new ceiling, stores the six fields, loads the
counter and replies with the record; on SAFETY it does so from SAFETY with ceiling 15, may-force on and reload 0,
and is refused NOT_PERMITTED otherwise; SET_SUPERVISION from source 0 or 1 with an interval 1..255 stores it;
READ_SOURCE of a source 0..4 replies with its record and the interval as all the changes of the last frame start have
left them, and with the clear option from the source itself or SAFETY sets its apply-fail count to 0; the clear from
another source is refused NOT_PERMITTED. A source that reads its own record with its tick outstanding comes before the
tick (R50, log 21), and what is left of the frame start's work is taken at the read (log 4). The field order of the
replies is log 10. (R41, R42, R45, R50, R52, log 4 (DESIGN CHOICE), log 10 (DESIGN CHOICE), log 21 (DEDUCED)) -/
def Obligations.SourceCommandsComplete : Prop :=
  ∀ (s : State) (h : Header),
    (∀ (b : SetSourceBody) (force : Bool), Admitted s h (.setSource h b) → h.src ≤ 1 → onOff b.mayForce = some force →
      1 ≤ b.target.toNat → b.target.toNat ≤ 4 → b.ceiling.toNat ≤ 15 → b.priority.toNat ≤ b.ceiling.toNat →
      b.quota.toNat ≤ 192 → (s.source b.target.toNat).live ≤ b.quota.toNat →
      (s.slotsWhere fun c => c.owner == b.target.toNat && decide (b.ceiling.toNat < c.priority)) = [] →
      ∃ t, t = ((s.met h).setSource b.target.toNat
            { (s.met h).source b.target.toNat with
              priority := b.priority.toNat, ceiling := b.ceiling.toNat, quota := b.quota.toNat, mayForce := force,
              lossFade := b.lossFade.toNat, reload := b.reload.toNat }).loadLiveness b.target.toNat b.reload.toNat ∧
        exec (.setSource h b) s = .next (s.accepted h (.setSource h b) t false (t.source b.target.toNat).bytes)) ∧
    (∀ (b : SetSourceBody) (force : Bool), Admitted s h (.setSource h b) → h.src ≤ 1 → onOff b.mayForce = some force →
      b.target = 0 → b.ceiling.toNat ≤ 15 → b.priority.toNat ≤ b.ceiling.toNat → b.quota.toNat ≤ 192 →
      (h.src ≠ 0 ∨ b.ceiling.toNat ≠ 15 ∨ force = false ∨ b.reload ≠ 0 →
        exec (.setSource h b) s = .next (s.refused h (.setSource h b) .notPermitted)) ∧
      (h.src = 0 → b.ceiling.toNat = 15 → force = true → b.reload = 0 → (s.source 0).live ≤ b.quota.toNat →
        (s.slotsWhere fun c => c.owner == 0 && decide (15 < c.priority)) = [] →
        ∃ t, t = ((s.met h).setSource 0
              { (s.met h).source 0 with
                priority := b.priority.toNat, ceiling := 15, quota := b.quota.toNat, mayForce := true,
                lossFade := b.lossFade.toNat, reload := 0 }).loadLiveness 0 0 ∧
          exec (.setSource h b) s = .next (s.accepted h (.setSource h b) t false (t.source 0).bytes))) ∧
    (∀ n : Byte, Admitted s h (.setSupervision h n) → h.src ≤ 1 → n ≠ 0 →
      exec (.setSupervision h n) s = .next (s.accepted h (.setSupervision h n)
        { s.met h with interval := n.toNat } false (u8 n.toNat))) ∧
    (∀ n : Byte, n.toNat ≤ 4 →
      let u := if n.toNat = h.src ∧ h.src ∈ s.work.lossDue then s.met h else (s.met h).settleToPass
      (Admitted s h (.readSource h n 0) →
        exec (.readSource h n 0) s = .next (s.accepted h (.readSource h n 0) u false
          ((u.source n.toNat).bytes ++ u8 u.interval))) ∧
      (Admitted s h (.readSource h n 1) → h.src = 0 ∨ h.src = n.toNat →
        exec (.readSource h n 1) s = .next (s.accepted h (.readSource h n 1)
          (u.setSource n.toNat { u.source n.toNat with applyFails := 0 }) false
          ((u.source n.toNat).bytes ++ u8 u.interval))) ∧
      (Admitted s h (.readSource h n 1) → h.src ≠ 0 → h.src ≠ n.toNat →
        exec (.readSource h n 1) s = .next (s.refusedAt h (.readSource h n 1) .notPermitted)))

/-- O21. For every admitted TAKE with a policy code, priority, fade and effective frame in range, a valid selector, a
name 0..4095, a form 0 or 1, no SOURCE point asked above 12, room in the queue, a live count not at the quota, a
FREE slot and enough Level Pool blocks: the lowest FREE slot is reserved, PENDING, for the command's fields, and the
reply carries the effective frame, the arrival number, the handle and the granted priority, CLAMPED where the
priority or a past AT was clamped. (R39, R56, R60, R61, R62, R82, R88) -/
def Obligations.TakeCompletes : Prop :=
  ∀ (s : State) (h : Header) (b : TakeBody) (policy : LossPolicy) (priority : Nat) (c1 c2 : Bool) (fade : Option Nat)
    (eff : Word) (k : Nat), Admitted s h (.take h b) → policyOf b.policy = some policy →
    priorityOf (s.source h.src) (h.mod? 1) = some (priority, c1) → h.fade? = some fade → Schedulable s h eff c2 →
    s.selectorValid (selectorOf b.selector) = true → b.name.toNat ≤ 4095 → b.form.toNat ≤ 1 →
    s.sourceOutOfRange (selectorOf b.selector) (takeTarget h b) = false →
    (s.source h.src).live ≠ (s.source h.src).quota → s.freeSlot = some k →
    blocksNeeded (takeForm h b) (selectorOf b.selector).count ≤ s.poolFree.length →
    exec (.take h b) s = .next (s.accepted h (.take h b)
      ((s.met h).reserve k
        { phase := .pending, owner := h.src, name := b.name.toNat, priority := priority, sequence := none,
          selector := selectorOf b.selector, form := takeForm h b, fadeIn := fade.getD b.fadeIn.toNat,
          fadeOut := b.fadeOut.toNat, storedFadeOut := b.fadeOut.toNat, elapsed := 0, remaining := 0, paused := false,
          policy := policy, origin := .command, effective := eff, chain := [], fresh := false }
        (if b.form = 1 then b.targets.map BitVec.toNat else []))
      (c1 || c2) (queuedFields eff s.arrival (some ⟨k, (s.slot k).gen⟩) (some priority)))

/-- O22. For every admitted TAKE that passes the checks on its fields: with the queue full it is refused QUEUE_FULL;
otherwise with its source at its quota, QUOTA; otherwise with no FREE slot, TABLE_FULL; otherwise with too few Level
Pool blocks, POOL_FULL. Each refusal leaves the reload and the reply only. For every admitted SET_WORKLIGHT_LEVEL
from source 0 or 1, FREEZE of a defined group and PLATE_PLAY of a plate 0..7, with an effective frame in range and
64 entries waiting: the answer is QUEUE_FULL and nothing of the command is done. That the refusal of a clamped
command has no CLAMPED mark is log 41. (R60, R61, R88, log 41 (DESIGN CHOICE)) -/
def Obligations.CommandsAreRefusedForWantOfRoom : Prop :=
  (∀ (s : State) (h : Header) (b : TakeBody) (policy : LossPolicy) (pr : Nat × Bool) (fade : Option Nat)
      (eff : Word × Bool), Admitted s h (.take h b) → policyOf b.policy = some policy →
      priorityOf (s.source h.src) (h.mod? 1) = some pr → h.fade? = some fade →
      effectiveFrame s.timer.counter h = some eff → s.selectorValid (selectorOf b.selector) = true →
      b.name.toNat ≤ 4095 → b.form.toNat ≤ 1 → s.sourceOutOfRange (selectorOf b.selector) (takeTarget h b) = false →
      (64 ≤ s.queue.length → exec (.take h b) s = .next (s.refused h (.take h b) .queueFull)) ∧
      (s.queue.length < 64 → (s.source h.src).live = (s.source h.src).quota →
        exec (.take h b) s = .next (s.refused h (.take h b) .quota)) ∧
      (s.queue.length < 64 → (s.source h.src).live ≠ (s.source h.src).quota → s.freeSlot = none →
        exec (.take h b) s = .next (s.refused h (.take h b) .tableFull)) ∧
      (s.queue.length < 64 → (s.source h.src).live ≠ (s.source h.src).quota → s.freeSlot ≠ none →
        s.poolFree.length < blocksNeeded (takeForm h b) (selectorOf b.selector).count →
        exec (.take h b) s = .next (s.refused h (.take h b) .poolFull))) ∧
  (∀ (s : State) (h : Header) (eff : Word) (cl : Bool), effectiveFrame s.timer.counter h = some (eff, cl) →
      64 ≤ s.queue.length →
      (∀ v : Half, h.src ≤ 1 → Admitted s h (.setWorklightLevel h v) →
        exec (.setWorklightLevel h v) s = .next (s.refused h (.setWorklightLevel h v) .queueFull)) ∧
      (∀ g : Byte, g.toNat ≤ 127 → (s.group g.toNat).count ≠ 0 → Admitted s h (.freeze h g) →
        exec (.freeze h g) s = .next (s.refused h (.freeze h g) .queueFull)) ∧
      (∀ p : Byte, p.toNat ≤ 7 → Admitted s h (.platePlay h p) →
        exec (.platePlay h p) s = .next (s.refused h (.platePlay h p) .queueFull)))

/-- O23. For every state, slot and record: after a reservation the slot holds the record with the needed blocks from the
front of the free list as its chain, its generation as before; those blocks are off the list; the owner's live count
is one higher and the other sources are as before; the TAKE entry stands at the back of the queue with the arrival
number, which rises by one; the other slots are as before; and where no two listed blocks are the same and a LIST
brings one target for each covered point, the targets lie in the words behind the level words. (R57, R61, R62, R81) -/
def Obligations.AReservationTakesItsParts : Prop :=
  ∀ (s : State) (k : Nat) (c : Contribution) (targets : List Nat),
    let n := blocksNeeded c.form c.selector.count
    let t := s.reserve k c targets
    t.slot k = ⟨(s.slot k).gen, some { c with chain := s.poolFree.take n }⟩ ∧ (∀ j, j ≠ k → t.slot j = s.slot j) ∧
    t.poolFree = s.poolFree.drop n ∧ (t.source c.owner).live = (s.source c.owner).live + 1 ∧
    (∀ m, m ≠ c.owner → t.source m = s.source m) ∧ t.arrival = s.arrival + 1 ∧
    t.queue = s.queue ++ [{ source := c.owner, origin := c.origin, arrival := s.arrival, effective := c.effective,
                            body := .take ⟨k, (s.slot k).gen⟩, due := false }] ∧
    (s.poolFree.Nodup → n ≤ s.poolFree.length → c.form = .list → targets.length = c.selector.count →
      ∀ i < targets.length, t.word (s.poolFree.take n) (c.selector.count + i) = targets.getD i 0)

/-- O24. For every state with canonical stores, as its render pass begins: each input 0..3 has its status sampled, is
shown where present and enabled, and counts a loss where it was present before; WLT is sampled; the fetch list holds
the fetches of the tiles that hold a place, by link, place and then need, each with the lines of its crop in its
plate's canvas to read. A tile needs the plates that are its current or from source and are fetched, where it holds
its place on an ACTIVE link, each once; each address read is that of a line of the crop in the plate's image. A
source change takes the tile's fetches that it no longer needs off the list behind the one in progress (log 31), and
a cut adds the new plate's fetch at the end, unless a SOFT_CLEAR has moved the plate since. An IMAGE packet that
begins with a fetch of its tile late raises FETCH_LATE, counts it for the tile and once for each late plate, and
keeps the last sent image. A pixel component lies between the two pictures' before the gains, which only lower it.
That a fetch with no line to read has ended when it is listed, and where a cut's fetch stands, is log 24 (DEDUCED);
a cut to the from source adds a second one (log 37, DEDUCED). Sampling and listing in the step in which the render
begins is log 4. (R142, R144, R145, R150, R151, R152, R159, log 4 (DESIGN CHOICE), log 16, log 24 (DEDUCED), log 31
(DEDUCED), log 37 (DEDUCED)) -/
def Obligations.InputsAndFetchesFollowTheFrame : Prop :=
  (∀ s : State, Canonical s → (∀ i < 4, s.beginRender.input i =
        { s.input i with
          sample := (s.input i).pin, shown := (s.input i).pin && (s.input i).enabled,
          losses := if (s.input i).sample && !(s.input i).pin then saturate 255 (s.input i).losses
            else (s.input i).losses }) ∧
      s.beginRender.wltSample = s.wltPin ∧ s.beginRender.work.phase = .rendering ∧
      (s.beginRender.fetches.map fun f => (f.tile, f.source)) =
        (s.placedTiles.flatMap fun k => (s.neededPlates k).map fun p => (k, p + 5)) ∧
      ∀ f ∈ s.beginRender.fetches, ∀ p, f.source = p + 5 → f.reads = s.cropReads f.tile p ∧
        f.columns = s.cropColumns f.tile p ∧ (f.ended = true ↔ f.reads = [])) ∧
  (∀ (s : State) (k p : Nat),
    (p ∈ s.neededPlates k ↔ s.holdsPlace k = true ∧ (s.link (s.tile k).fields.link).state = .active ∧
      (plateOf (s.tile k).current = some p ∨ ∃ v, (s.tile k).fromSource = some v ∧ plateOf v = some p) ∧
      (s.plate p).fetched = true) ∧ (s.neededPlates k).Nodup ∧
    ∀ a ∈ s.cropReads k p, ∃ r < 128, (s.tile k).fields.cropY + r < (s.plate p).height ∧
      s.pixelAddress p (s.plate p).image ((s.tile k).fields.cropY + r) (s.tile k).fields.cropX = some a) ∧
  (∀ (s : State) (k : Nat) (done rest : List Fetch) (f : Fetch), s.fetches = done ++ f :: rest →
    (∀ g ∈ done, g.ended = true) → f.ended = false →
    (s.dropFetches k).fetches = done ++ f :: rest.filter (fun g =>
      !(g.tile == k && !g.ended && g.source != (s.tile k).current && (s.tile k).fromSource != some g.source))) ∧
  (∀ (s : State) (k p : Nat), plateOf (s.tile k).current = some p →
    ((s.plate p).cleared = true → s.fetchForCut k = s) ∧
    (s.holdsPlace k = true → (s.link (s.tile k).fields.link).state = .active → (s.plate p).fetched = true →
      (s.plate p).cleared = false → s.fetchForCut k = s.addFetch k p ∧
        (s.addFetch k p).fetches.map (fun f => (f.tile, f.source)) =
          s.fetches.map (fun f => (f.tile, f.source)) ++ [(k, p + 5)])) ∧
  (∀ (s : State) (past : Bool) (v : TileSet), s.lateSources v.tile ≠ [] →
    let t := s.beginImage past v
    t.event 11 = ⟨true, saturate 255 (s.event 11).count⟩ ∧
      t.tile v.tile = { s.tile v.tile with fetchLate := saturate 65535 (s.tile v.tile).fetchLate } ∧
      ∀ p < 8, t.plate p = { s.plate p with
        late := if p + 5 ∈ s.lateSources v.tile then saturate 65535 (s.plate p).late else (s.plate p).late }) ∧
  ∀ cur frm e D gain trim : Nat, cur ≤ 1023 → frm ≤ 1023 → e ≤ D → 1 ≤ D → gain ≤ 65535 → trim ≤ 65535 →
    min cur frm ≤ mixComponent cur frm e D true ∧ mixComponent cur frm e D true ≤ max cur frm ∧
      mixComponent cur frm e D false = cur ∧ mixComponent cur frm 0 D true = frm ∧
      ((outputComponent cur gain trim).toNat = levelProduct cur (levelProduct gain trim) ∧
        (outputComponent cur gain trim).toNat ≤ cur) ∧
      (outputComponent cur 65535 65535).toNat = cur ∧ outputComponent cur 0 trim = 0

/-- O25. For every state and every slot that holds a record, whose chain has no block twice and room for a word each
covered point: a release with a length above 0 leaves the record FADING_OUT, anonymous, not paused, with that
fade-out length and that remaining, its elapsed value not kept (0), the fade-out its TAKE stored as it was (log 30),
its level words holding the levels it had at the last render (its level words as they were where it was applied at
this frame start); a release with length 0 leaves the slot FREE. In both cases the owner's name no longer finds it.
That the elapsed value not kept reads 0 is log 30. (R66, R67, R187, log 30 (DEDUCED)) -/
def Obligations.ReleasingStartsTheFadeOut : Prop :=
  ∀ (s : State) (k L : Nat) (c : Contribution), (s.slot k).record = some c → c.chain.Nodup →
    c.selector.count ≤ 16 * c.chain.length →
    (0 < L → (s.release k L).slot k = ⟨(s.slot k).gen,
        some { c with name := 0, phase := .fadingOut, fadeOut := L, elapsed := 0, remaining := L, paused := false,
                      fresh := true }⟩ ∧
      ∀ i < c.selector.count, (s.release k L).word c.chain i =
        if c.fresh then s.word c.chain i else s.effectiveLevel c i (s.coveredPoint c.selector i)) ∧
    (L = 0 → ((s.release k L).slot k).record = none) ∧
    (c.name ≠ 0 → (s.release k L).named c.owner c.name = none) ∧ (∀ j, j ≠ k → (s.release k L).slot j = s.slot j)

/-- O26. For every admitted frame with room in the queue and an effective frame in range: RELEASE, with a slot 0..191 or
a name 1..4095 and a fade in range, joins the queue with its address and FADE modifier; RELEASE_SOURCE of the
frame's own source, or of any source 0..4 from SAFETY, joins it with its target; PAUSE and RESUME join it with their
address. The reply carries the effective frame, the arrival number and the handle where the address is one.
RELEASE_SOURCE of another source than its own is refused NOT_PERMITTED but from SAFETY. That the refusal of a
clamped command has no CLAMPED mark is log 41. (R68, R69, R71, R76, R82, log 41 (DESIGN CHOICE)) -/
def Obligations.ContributionArrivalsComplete : Prop :=
  ∀ (s : State) (h : Header) (eff : Word) (cl : Bool), Schedulable s h eff cl →
    (∀ a addr fade, Admitted s h (.release h a) → addressOf a = some addr → h.fade? = some fade →
      exec (.release h a) s = .next (s.queued h (.release h a) eff cl (.release addr fade) addr.handle?)) ∧
    (∀ (n : Byte) (fade : Option Nat), Admitted s h (.releaseSource h n) → n.toNat ≤ 4 → h.src = 0 ∨ h.src = n.toNat →
      h.fade? = some fade →
      exec (.releaseSource h n) s = .next (s.queued h (.releaseSource h n) eff cl (.releaseSource n.toNat fade) none)) ∧
    (∀ n : Byte, Admitted s h (.releaseSource h n) → h.src ≠ 0 → h.src ≠ n.toNat →
      exec (.releaseSource h n) s = .next (s.refused h (.releaseSource h n) .notPermitted)) ∧
    (∀ a addr, Admitted s h (.pause h a) → addressOf a = some addr →
      exec (.pause h a) s = .next (s.queued h (.pause h a) eff cl (.pause addr) addr.handle?)) ∧
    (∀ a addr, Admitted s h (.resume h a) → addressOf a = some addr →
      exec (.resume h a) s = .next (s.queued h (.resume h a) eff cl (.resume addr) addr.handle?))

/-- O27. For every admitted frame from source 0 or 1 with room in the queue and an effective frame in range: SET_POINT
with fields in range joins the queue with them, CLAMPED where its offset was brought into -4096..4095; BIND_POINT of
a point 0..2559 with a binding in range, LOAD_CURVE of a curve 1..7 with its 17 knots, SET_WORKLIGHT_LEVEL and
SET_TILE with fields in range join it with theirs. LOAD_CURVE of curve 0 is refused NOT_PERMITTED. That the refusal
of a clamped command has no CLAMPED mark is log 41. (R23, R25, R35, R82, R131, R155, log 41 (DESIGN CHOICE)) -/
def Obligations.ConfigurationArrivalsComplete : Prop :=
  ∀ (s : State) (h : Header) (eff : Word) (cl : Bool), h.src ≤ 1 → Schedulable s h eff cl →
    (∀ b f, Admitted s h (.setPoint h b) → pointFieldsOf b = some f →
      exec (.setPoint h b) s = .next (s.queued h (.setPoint h b) eff (cl || f.offset != signed16 b.offset)
        (.setPoint b.point.toNat f) none)) ∧
    (∀ (p : Half) (b : BindingField) (v : Binding), Admitted s h (.bindPoint h p b) → p.toNat ≤ 2559 →
      bindingOf b = some v →
      exec (.bindPoint h p b) s = .next (s.queued h (.bindPoint h p b) eff cl (.bindPoint p.toNat v) none)) ∧
    (∀ (c : Byte) (ks : List Half), Admitted s h (.loadCurve h c ks) → 1 ≤ c.toNat → c.toNat ≤ 7 →
      exec (.loadCurve h c ks) s = .next (s.queued h (.loadCurve h c ks) eff cl
        (.loadCurve c.toNat (ks.map BitVec.toNat)) none)) ∧
    (∀ ks : List Half, Admitted s h (.loadCurve h 0 ks) →
      exec (.loadCurve h 0 ks) s = .next (s.refused h (.loadCurve h 0 ks) .notPermitted)) ∧
    (∀ v : Half, Admitted s h (.setWorklightLevel h v) →
      exec (.setWorklightLevel h v) s = .next (s.queued h (.setWorklightLevel h v) eff cl
        (.setWorklightLevel v.toNat) none)) ∧
    (∀ b f, Admitted s h (.setTile h b) → tileFieldsOf b = some f →
      exec (.setTile h b) s = .next (s.queued h (.setTile h b) eff cl (.setTile b.tile.toNat f) none))

/-- O28. For every admitted frame with room in the queue and an effective frame in range, from a source with may-force
on: FORCE_SET with a mode PARK, CAP or FLOOR, a valid selector and a value that suits the SOURCE points it covers
joins the queue with its value, the FAN modifier's base and step where it has one; FORCE_CLEAR with a valid selector
and MASTER_SET of a master 0..3 with a fade in range join it. From a source with may-force off each is refused
NOT_PERMITTED. For every admitted frame with room in the queue and an effective frame in range: FREEZE and THAW of a
defined group 0..127 and PLATE_PLAY and PLATE_STOP of a plate 0..7 join the queue; a FREEZE of an undefined group is
refused RANGE. That the refusal of a clamped command has no CLAMPED mark is log 41. (R43, R120, R122, R127, R123,
R148, log 41 (DESIGN CHOICE)) -/
def Obligations.OverrideAndPlateArrivalsComplete : Prop :=
  (∀ (s : State) (h : Header) (eff : Word) (cl : Bool), Schedulable s h eff cl →
      ((s.source h.src).mayForce = true →
        (∀ x md (m : ForceMode) v, Admitted s h (.forceSet h x md v) → forceModeOf md = some m →
          s.selectorValid (selectorOf x) = true → s.forceUnsuits (selectorOf x) m (forceValueOf h v) = false →
          exec (.forceSet h x md v) s = .next (s.queued h (.forceSet h x md v) eff cl
            (.forceSet (selectorOf x) m (forceValueOf h v)) none)) ∧
        (∀ x, Admitted s h (.forceClear h x) → s.selectorValid (selectorOf x) = true →
          exec (.forceClear h x) s = .next (s.queued h (.forceClear h x) eff cl (.forceClear (selectorOf x)) none)) ∧
        (∀ (m : Byte) (v f : Half) (fade : Option Nat), Admitted s h (.masterSet h m v f) → m.toNat ≤ 3 →
          h.fade? = some fade →
          exec (.masterSet h m v f) s = .next (s.queued h (.masterSet h m v f) eff cl
            (.masterSet m.toNat v.toNat (fade.getD f.toNat)) none))) ∧
      ((s.source h.src).mayForce = false →
        (∀ x md v, Admitted s h (.forceSet h x md v) →
          exec (.forceSet h x md v) s = .next (s.refused h (.forceSet h x md v) .notPermitted)) ∧
        (∀ x, Admitted s h (.forceClear h x) →
          exec (.forceClear h x) s = .next (s.refused h (.forceClear h x) .notPermitted)) ∧
        (∀ (m : Byte) (v f : Half), Admitted s h (.masterSet h m v f) →
          exec (.masterSet h m v f) s = .next (s.refused h (.masterSet h m v f) .notPermitted)))) ∧
  (∀ (s : State) (h : Header) (eff : Word) (cl : Bool), Schedulable s h eff cl →
      (∀ g : Byte, g.toNat ≤ 127 → (s.group g.toNat).count ≠ 0 →
        (Admitted s h (.freeze h g) →
          exec (.freeze h g) s = .next (s.queued h (.freeze h g) eff cl (.freeze g.toNat) none)) ∧
        (Admitted s h (.thaw h g) →
          exec (.thaw h g) s = .next (s.queued h (.thaw h g) eff cl (.thaw g.toNat) none))) ∧
      (∀ g : Byte, (s.group g.toNat).count = 0 → Admitted s h (.freeze h g) →
        exec (.freeze h g) s = .next (s.refused h (.freeze h g) .range)) ∧
      (∀ p : Byte, p.toNat ≤ 7 →
        (Admitted s h (.platePlay h p) →
          exec (.platePlay h p) s = .next (s.queued h (.platePlay h p) eff cl (.platePlay p.toNat) none)) ∧
        (Admitted s h (.plateStop h p) →
          exec (.plateStop h p) s = .next (s.queued h (.plateStop h p) eff cl (.plateStop p.toNat) none))))

/-- O29. For every frame number n and header: without AT and DELAY the effective frame is n + 1; a DELAY of d up to
65535 gives n + 1 + d, and a larger one is out of range; an AT of f gives f where f is 0 to 65535 frames after n + 1
in the wrapping order, n + 1 with the CLAMPED mark where f is before n + 1, and is out of range further ahead. Every
sum wraps modulo 2^32. For all frame numbers a and b the difference modulo 2^32 is read in -2147483648..2147483647;
a is before b where it is negative, the same where it is zero, and after b where it is positive; a frame number
formed by adding k frames is the sum modulo 2^32; and frame 5 is 11 frames after frame 4294967290. (R15, R82, R83) -/
def Obligations.FramesWrapAndFollowTheModifiers : Prop :=
  (∀ (n : Word) (h : Header),
      (h.mod? 2 = none → h.mod? 3 = none → effectiveFrame n h = some (n + 1, false)) ∧
      (∀ d : Word, h.mod? 2 = none → h.mod? 3 = some d →
        effectiveFrame n h = if d.toNat ≤ 65535 then some (n + 1 + d, false) else none) ∧
      (∀ f : Word, h.mod? 2 = some f →
        (isBefore f (n + 1) = true → effectiveFrame n h = some (n + 1, true)) ∧
        (isBefore f (n + 1) = false → (f - (n + 1)).toNat ≤ 65535 → effectiveFrame n h = some (f, false)) ∧
        (isBefore f (n + 1) = false → 65535 < (f - (n + 1)).toNat → effectiveFrame n h = none))) ∧
  ((∀ a b : Word, -2147483648 ≤ signedDiff a b ∧ signedDiff a b ≤ 2147483647 ∧
        (signedDiff a b - ((a.toNat : Int) - b.toNat)) % 4294967296 = 0 ∧
        (isBefore a b = true ↔ signedDiff a b < 0) ∧ (a = b ↔ signedDiff a b = 0) ∧
        (signedDiff a b < 0 ∨ signedDiff a b = 0 ∨ 0 < signedDiff a b)) ∧
      (∀ (n k : Word), (n + k).toNat = (n.toNat + k.toNat) % 4294967296) ∧ signedDiff 5 4294967290 = 11)

/-- O30. For every admitted FLUSH of the frame's own source, or of any source 0..4 from SAFETY, without an arrival
number or with one of a waiting entry of that source: the matching entries leave the queue, the others keep their
order, the slots of the TAKE entries among them return to FREE, and the reply carries how many entries and how many
contributions went. The order in which several freed contributions return their blocks is log 14 (DEDUCED). (R40,
R58, R75, R93, log 14 (DEDUCED)) -/
def Obligations.FlushCompletes : Prop :=
  ∀ (s : State) (h : Header) (n : Byte) (a : Option Word), Admitted s h (.flush h n a) → n.toNat ≤ 4 →
    h.src = 0 ∨ h.src = n.toNat → (a.isSome = true → s.queue.any (Entry.flushed n.toNat a) = true) →
    let gone := s.queue.filter (Entry.flushed n.toNat a)
    exec (.flush h n a) s = .next (s.accepted h (.flush h n a) ((s.met h).flush n.toNat a) false
        (u8 gone.length ++ u8 (takeHandles gone).length)) ∧
      ((s.met h).flush n.toNat a).queue = s.queue.filter (fun e => !e.flushed n.toNat a) ∧
      (∀ hd, hd ∈ takeHandles gone → (((s.met h).flush n.toNat a).slot hd.slot).record = none) ∧
      ∀ k, (∀ hd, hd ∈ takeHandles gone → hd.slot ≠ k) → ((s.met h).flush n.toNat a).slot k = s.slot k

/-- O31. For every admitted frame, and what has come of the last frame start by then: READ_CONTRIBUTION of a slot 0..191
replies with its record, or FREE and its handle, then the free blocks and the sequence counter, and with a window that
fits also its words; READ_OVERRIDES with the masters, the work light and the counts, and a fitting window's forces:
both from the tables once the applications, losses, counts and the cue evaluation of the last frame start are taken, so
that no due entry, outstanding tick or ended count is left of it and its render pass has begun. READ_CUE of a cue
0..511 replies with its record, and a fitting window's actions, and READ_LIST of list 0 or 1 with its descriptor and
its cues, both once the evaluation of the last frame start is taken. READ_QUEUE with a window within 0..63 replies with
the queue's numbers, the last failure and the entries of the window. What is left of the frame start's work is taken
then and not later (log 4). The bytes of a FREE slot's and an EMPTY cue's reply, the fields a record sends as absent,
the bytes of a trigger and a value form, and the field order are log 10. That READ_OVERRIDES counts the listed forces
and freezes, and the bytes of a STEADY master, are log 27 (DEDUCED), and that READ_CONTRIBUTION reports the fade-out
length of the release is log 30 (DEDUCED). (R77, R78, R94, R132, R184, log 4 (DESIGN CHOICE), log 10 (DESIGN CHOICE),
log 27 (DEDUCED), log 30 (DEDUCED)) -/
def Obligations.ReadsWithoutClearComplete : Prop :=
  (∀ s : State,
    (s.work.phase = .applying → s.settleToPass.noneDue = true ∧ s.settleToPass.work.lossDue = []) ∧
    (s.work.phase = .applying ∨ s.work.phase = .counting →
      s.settleToPass.work.counted = true ∧ s.settleToPass.work.evaluation = none ∧
        s.settleToPass.work.phase = .rendering) ∧
    (s.work.phase = .idle ∨ s.work.phase = .rendering → s.settleToPass = s) ∧
    (s.evaluateAll 40).work.evaluation = none ∧ (s.work.evaluation = none → s.evaluateAll 40 = s)) ∧
  ∀ (s : State) (h : Header),
    let p := (s.met h).settleToPass
    let u := (s.met h).evaluateAll 40
    (∀ (k : Byte) (w : Option Window), Admitted s h (.readContribution h (.slot k) w) → k.toNat ≤ 191 →
      ((p.slot k.toNat).record = none → w = none →
        exec (.readContribution h (.slot k) w) s = .next (s.accepted h (.readContribution h (.slot k) w) p false
          (u8 0 ++ handleBytes (some ⟨k.toNat, (p.slot k.toNat).gen⟩) ++ (u16 p.poolFree.length ++ be32 p.sequence)))) ∧
      (∀ c, (p.slot k.toNat).record = some c → w.all (windowFits c) = true →
        exec (.readContribution h (.slot k) w) s = .next (s.accepted h (.readContribution h (.slot k) w) p false
          (c.bytes ⟨k.toNat, (p.slot k.toNat).gen⟩ ++ (u16 p.poolFree.length ++ be32 p.sequence) ++
            (w.map (p.windowBytes c)).getD [])))) ∧
    (∀ f n : Byte, Admitted s h (.readQueue h f n) → f.toNat ≤ 63 → f.toNat + n.toNat ≤ 64 →
      exec (.readQueue h f n) s = .next (s.accepted h (.readQueue h f n) (s.met h) false
        (u8 s.queue.length ++ u8 s.queueRoom ++ be32 s.arrival ++ be32 s.timer.counter ++ failureBytes s.lastFailure ++
          s.queueWindow f.toNat n.toNat))) ∧
    (∀ w : Option Window, Admitted s h (.readOverrides h w) → w.all forceWindowFits = true →
      exec (.readOverrides h w) s = .next (s.accepted h (.readOverrides h w) p false
        ((List.range 4).flatMap (fun m => (p.master m).bytes) ++ u16 p.workLight ++ mark p.wltPin ++ mark p.wltRendered ++
          u16 p.forces.entries.length ++ u8 p.freezes.entries.length ++ (w.map p.forceWindow).getD []))) ∧
    (∀ (c : Half) (w : Option Window), Admitted s h (.readCue h c w) → c.toNat ≤ 511 →
      (w.isSome = true → (u.cue c.toNat).state ≠ .empty) → w.all (u.cue c.toNat).windowFits = true →
      exec (.readCue h c w) s = .next (s.accepted h (.readCue h c w) u false
        (u.cueBytes c.toNat ++ (w.map (u.actionWindow c.toNat)).getD []))) ∧
    (∀ l : Byte, Admitted s h (.readList h l) → l.toNat ≤ 1 →
      exec (.readList h l) s = .next (s.accepted h (.readList h l) u false
        ((u.list l.toNat).bytes ++ u16 (u.chain l.toNat).length ++
          (u.chain l.toNat).flatMap fun c => u16 c ++ u8 (u.cue c).state.code)))

/-- O32. For every admitted frame on a line 0..7, input 0..3, tile 0..63, link 0..3 or plate 0..7 (with a descriptor
window that fits, or none): the reply carries the record as it stands; with the clear option from source 0 or 1 the slip
and drop counts, loss count, late counts are then 0; without it no table changes. With the clear option from another
source each of the five is refused NOT_PERMITTED. READ_CONTRIBUTION by a handle 0..191 or by an owner 0..4 and a name
1..4095 replies with the record it finds once the applications, losses and counts of the last frame start are taken (log
4), and with a window that fits also its words, and is refused NOT_FOUND where it finds none. The field order of these
replies is the model's reading of R188 (log 10). The fields a record sends as absent are log 10. The bytes of READ_TILE
before the first render complete are log 27 (DEDUCED), and that READ_CONTRIBUTION reports the fade-out length of the
release is log 30 (DEDUCED). (R77, R78, R141, R143, R165, log 4 (DESIGN CHOICE), log 10 (DESIGN CHOICE), log 27
(DEDUCED), log 30 (DEDUCED)) -/
def Obligations.ReadsWithClearComplete : Prop :=
  (∀ (s : State) (h : Header) (n : Byte) (c : Bool), (c = true → h.src ≤ 1) →
    let clear : Byte := if c then 1 else 0
    (Admitted s h (.readLine h n clear) → n.toNat ≤ 7 →
      exec (.readLine h n clear) s = .next (s.accepted h (.readLine h n clear)
        (if c then (s.met h).setLine n.toNat { s.line n.toNat with slips := 0, drops := 0 } else s.met h) false
        (s.line n.toNat).bytes)) ∧
    (Admitted s h (.readInput h n clear) → n.toNat ≤ 3 →
      exec (.readInput h n clear) s = .next (s.accepted h (.readInput h n clear)
        (if c then (s.met h).setInput n.toNat { s.input n.toNat with losses := 0 } else s.met h) false
        (mark (s.input n.toNat).enabled ++ mark (s.input n.toNat).pin ++ mark (s.input n.toNat).sample ++
          u8 (shownCode (s.input n.toNat).shown) ++ u8 (s.input n.toNat).losses))) ∧
    (Admitted s h (.readTile h n clear) → n.toNat ≤ 63 →
      exec (.readTile h n clear) s = .next (s.accepted h (.readTile h n clear)
        (if c then (s.met h).setTile n.toNat { s.tile n.toNat with fetchLate := 0 } else s.met h) false
        (s.tileBytes n.toNat))) ∧
    (Admitted s h (.readLink h n clear) → n.toNat ≤ 3 →
      exec (.readLink h n clear) s = .next (s.accepted h (.readLink h n clear)
        (if c then (s.met h).setLink n.toNat { s.link n.toNat with slips := 0, drops := 0 } else s.met h) false
        (s.link n.toNat).bytes)) ∧
    (∀ w : Option Window, Admitted s h (.readPlate h n clear w) → n.toNat ≤ 7 →
      w.all (s.plate n.toNat).windowFits = true →
      exec (.readPlate h n clear w) s = .next (s.accepted h (.readPlate h n clear w)
        (if c then (s.met h).setPlate n.toNat { s.plate n.toNat with late := 0 } else s.met h) false
        (s.plateBytes n.toNat ++ (w.map (s.descriptorWindow n.toNat)).getD [])))) ∧
  (∀ (s : State) (h : Header) (n : Byte), 2 ≤ h.src →
    (Admitted s h (.readLine h n 1) → n.toNat ≤ 7 →
      exec (.readLine h n 1) s = .next (s.refused h (.readLine h n 1) .notPermitted)) ∧
    (Admitted s h (.readInput h n 1) → n.toNat ≤ 3 →
      exec (.readInput h n 1) s = .next (s.refused h (.readInput h n 1) .notPermitted)) ∧
    (Admitted s h (.readTile h n 1) → n.toNat ≤ 63 →
      exec (.readTile h n 1) s = .next (s.refused h (.readTile h n 1) .notPermitted)) ∧
    (Admitted s h (.readLink h n 1) → n.toNat ≤ 3 →
      exec (.readLink h n 1) s = .next (s.refused h (.readLink h n 1) .notPermitted)) ∧
    (∀ w : Option Window, Admitted s h (.readPlate h n 1 w) → n.toNat ≤ 7 → w.all (s.plate n.toNat).windowFits = true →
      exec (.readPlate h n 1 w) s = .next (s.refused h (.readPlate h n 1 w) .notPermitted))) ∧
  ∀ (s : State) (h : Header) (w : Option Window),
    let p := (s.met h).settleToPass
    (∀ k g : Byte, Admitted s h (.readContribution h (.handle k g) w) → k.toNat ≤ 191 →
      (p.matching ⟨k.toNat, g.toNat⟩ = none →
        exec (.readContribution h (.handle k g) w) s =
          .next (s.refusedAt h (.readContribution h (.handle k g) w) .notFound)) ∧
      ∀ c, p.matching ⟨k.toNat, g.toNat⟩ = some c → w.all (windowFits c) = true →
        exec (.readContribution h (.handle k g) w) s =
          .next (s.accepted h (.readContribution h (.handle k g) w) p false
            (c.bytes ⟨k.toNat, g.toNat⟩ ++ (w.map (p.windowBytes c)).getD []))) ∧
    ∀ (o : Byte) (n : Half), Admitted s h (.readContribution h (.ownerName o n) w) → o.toNat ≤ 4 → 1 ≤ n.toNat →
      n.toNat ≤ 4095 →
      (p.named o.toNat n.toNat = none →
        exec (.readContribution h (.ownerName o n) w) s =
          .next (s.refusedAt h (.readContribution h (.ownerName o n) w) .notFound)) ∧
      ∀ k c, p.named o.toNat n.toNat = some k → (p.slot k).record = some c → w.all (windowFits c) = true →
        exec (.readContribution h (.ownerName o n) w) s =
          .next (s.accepted h (.readContribution h (.ownerName o n) w) p false
            (c.bytes ⟨k, (p.slot k).gen⟩ ++ (w.map (p.windowBytes c)).getD []))

/-- O33. For every admitted frame from source 0 or 1: SET_LINE of a line 0..7 with an enabled code, a slot count 1..384
and a rate code 0..2 stores the three and drops the waiting set of a line it disables, whose frame in flight goes
on; SET_INPUT of an input 0..3 stores the enabled field; SET_LINK of a link 0..3 with a wake delay 1..63 stores the
wake delay and the idle period. The reply carries the stored record. What the record in the reply carries
(SET_INPUT: the last sample, after the command) is the model's choice (log 10). (R134, R140, R143, R164, log 10
(DESIGN CHOICE)) -/
def Obligations.OutputConfigurationCompletes : Prop :=
  ∀ (s : State) (h : Header), h.src ≤ 1 →
    (∀ (l e r : Byte) (n : Half) (on : Bool), Admitted s h (.setLine h l e n r) → l.toNat ≤ 7 → onOff e = some on →
      1 ≤ n.toNat → n.toNat ≤ 384 → r.toNat ≤ 2 →
      exec (.setLine h l e n r) s = .next (s.accepted h (.setLine h l e n r)
        ((s.met h).setLine l.toNat
          { s.line l.toNat with
            enabled := on, count := n.toNat, rate := r.toNat,
            waiting := if on then (s.line l.toNat).waiting else none }) false
        (mark on ++ u16 n.toNat ++ u8 r.toNat ++ u8 (transmitterCode (s.line l.toNat).inFlight.isSome) ++
          u8 (s.line l.toNat).sequence))) ∧
    (∀ (n e : Byte) (on : Bool), Admitted s h (.setInput h n e) → n.toNat ≤ 3 → onOff e = some on →
      exec (.setInput h n e) s = .next (s.accepted h (.setInput h n e)
        ((s.met h).setInput n.toNat { s.input n.toNat with enabled := on }) false
        (mark on ++ mark (s.input n.toNat).sample ++ u8 (shownCode (s.input n.toNat).shown) ++
          u8 (s.input n.toNat).losses))) ∧
    (∀ (l w : Byte) (d : Half), Admitted s h (.setLink h l w d) → l.toNat ≤ 3 → 1 ≤ w.toNat → w.toNat ≤ 63 →
      exec (.setLink h l w d) s = .next (s.accepted h (.setLink h l w d)
        ((s.met h).setLink l.toNat { s.link l.toNat with wakeDelay := w.toNat, idlePeriod := d.toNat }) false
        ({ s.link l.toNat with wakeDelay := w.toNat, idlePeriod := d.toNat } : Link).bytes))

/-- O34. For every admitted LOAD_PLATE of a plate 0..7 from source 0 or 1 with 1..128 descriptors that fit: a FIRST part
with fields in range, on a plate that is not PLAYING and shown by no tile, with enough descriptors free counting the
plate's own, takes the fields and the descriptors; a NEXT part on an open load, with enough descriptors free and at
most 256 images in all, appends its descriptors. With the last mark the plate is STOPPED at image 0 with the load
closed and late count 0; without it the load is open, and the plate UNDEFINED after a FIRST part and in the state it
had after a NEXT part. Descriptors come from the front of the free list; where no two taken are the same they hold
the part's address, line count and end-of-image mark in order, the end-of-clip mark on the last one of a part with
the last mark alone; every other descriptor and every other plate is as before. The marks wasPlaying and cleared are
the model's own (log 4), and that bits 2 to 7 of an entry's marks are ignored is log 9. (R145, R146, R147, log 4
(DESIGN CHOICE), log 9 (DESIGN CHOICE)) -/
def Obligations.LoadPlateCompletes : Prop :=
  ∀ (s : State) (h : Header) (b : LoadPlateBody) (last : Bool), Admitted s h (.loadPlate h b) → h.src ≤ 1 →
    b.plate.toNat ≤ 7 → b.part.toNat ≤ 1 → onOff b.last = some last → 1 ≤ b.descriptors.length →
    b.descriptors.length ≤ 128 →
    let x := s.plate b.plate.toNat
    let n := b.descriptors.length
    let written (taken : List Nat) (t : State) : Prop :=
      (taken.Nodup → ∀ (j d : Nat) (e : DescriptorField), taken[j]? = some d → b.descriptors[j]? = some e →
        t.descriptor d = ⟨e.address.toNat, e.lines.toNat, endOfImageMark e, last && j + 1 == n⟩) ∧
      ∀ d, d ∉ taken → t.descriptor d = s.descriptor d
    (∀ f mode, b.first = some f → plateFirstOf f = some mode →
      descriptorsFit f.width.toNat f.height.toNat b.descriptors = true → x.state ≠ .playing →
      s.plateShown b.plate.toNat = false → n ≤ s.descriptorFree.length + x.clip.length →
      ∃ t, exec (.loadPlate h b) s = .next (s.accepted h (.loadPlate h b) t false (t.loadPlateFields b.plate.toNat)) ∧
        t.plate b.plate.toNat =
          { state := if last then .stopped else .undefined, loadOpen := !last, width := f.width.toNat,
            height := f.height.toNat, hold := f.hold.toNat, endMode := mode,
            clip := (s.descriptorFree ++ x.clip).take n, image := 0, held := 0, late := if last then 0 else x.late,
            wasPlaying := x.wasPlaying, cleared := false } ∧
        t.descriptorFree = (s.descriptorFree ++ x.clip).drop n ∧ written ((s.descriptorFree ++ x.clip).take n) t ∧
        (∀ p, p ≠ b.plate.toNat → t.plate p = s.plate p) ∧
        t = { s.met h with plates := t.plates, descriptors := t.descriptors, descriptorFree := t.descriptorFree }) ∧
    (b.first = none → x.loadOpen = true → descriptorsFit x.width x.height b.descriptors = true →
      s.imageCount x.clip + (b.descriptors.filter endOfImageMark).length ≤ 256 → n ≤ s.descriptorFree.length →
      ∃ t, exec (.loadPlate h b) s = .next (s.accepted h (.loadPlate h b) t false (t.loadPlateFields b.plate.toNat)) ∧
        t.plate b.plate.toNat =
          { x with
            clip := x.clip ++ s.descriptorFree.take n,
            state := if last then .stopped else x.state, loadOpen := !last,
            image := if last then 0 else x.image, held := if last then 0 else x.held,
            late := if last then 0 else x.late } ∧
        t.descriptorFree = s.descriptorFree.drop n ∧ written (s.descriptorFree.take n) t ∧
        (∀ p, p ≠ b.plate.toNat → t.plate p = s.plate p) ∧
        t = { s.met h with plates := t.plates, descriptors := t.descriptors, descriptorFree := t.descriptorFree })

/-- O35. For every admitted LOAD_CUE of a cue 0..511 that is in no list, for list 0 or 1, from source 0 or 1 or the
list's acting source, with 1..32 actions in range, may-force where they need it, and enough action records free: a
NEW part leaves the cue LOADED for the list with its trigger and the actions as its chain, its old records at the
back of the free list; an APPEND part on a LOADED cue of the list, up to 64 actions in all, appends them. Where no
two taken records are the same they hold the actions in order, and every other action record is as before. The reply
carries the state, the actions and the free records. (R43, R168, R170, R171) -/
def Obligations.LoadCueCompletes : Prop :=
  ∀ (s : State) (h : Header) (b : LoadCueBody) (l : Nat) (as : List Action), Admitted s h (.loadCue h b) →
    b.cue.toNat ≤ 511 → b.mode.toNat ≤ 1 → listOf b.list = some l → s.mayEdit h l = true →
    (s.cue b.cue.toNat).inList = false → 1 ≤ b.actions.length → b.actions.length ≤ 32 →
    b.actions.mapM s.actionOf = some as →
    (as.any Action.needsForce = true → (s.source (s.list l).acting).mayForce = true) →
    let x := s.cue b.cue.toNat
    let written (taken : List Nat) (t : State) : Prop :=
      (taken.Nodup → ∀ (j r : Nat) (a : Action), taken[j]? = some r → as[j]? = some a → t.action r = a) ∧
      ∀ r, r ∉ taken → t.action r = s.action r
    (∀ tf tr, b.trigger = some tf → triggerOf tf = some tr → as.length ≤ s.actionFree.length + x.chain.length →
      ∃ t, exec (.loadCue h b) s = .next (s.accepted h (.loadCue h b) t false (t.loadCueFields b.cue.toNat)) ∧
        t.cue b.cue.toNat =
          { state := .loaded, list := l, trigger := tr, next := none,
            chain := (s.actionFree ++ x.chain).take as.length, late := false } ∧
        t.actionFree = (s.actionFree ++ x.chain).drop as.length ∧
        written ((s.actionFree ++ x.chain).take as.length) t ∧ (∀ c, c ≠ b.cue.toNat → t.cue c = s.cue c) ∧
        t = { s.met h with cues := t.cues, actions := t.actions, actionFree := t.actionFree }) ∧
    (b.trigger = none → x.state = .loaded → x.list = l → x.chain.length + b.actions.length ≤ 64 →
      as.length ≤ s.actionFree.length →
      ∃ t, exec (.loadCue h b) s = .next (s.accepted h (.loadCue h b) t false (t.loadCueFields b.cue.toNat)) ∧
        t.cue b.cue.toNat = { x with chain := x.chain ++ s.actionFree.take as.length } ∧
        t.actionFree = s.actionFree.drop as.length ∧ written (s.actionFree.take as.length) t ∧
        (∀ c, c ≠ b.cue.toNat → t.cue c = s.cue c) ∧
        t = { s.met h with cues := t.cues, actions := t.actions, actionFree := t.actionFree })

/-- O36. For every admitted frame from source 0 or 1 or the list's acting source, LINK_CUE and UNLINK_CUE being judged
by the chain as the evaluation of the last frame start has left it, none of it then outstanding: LINK_CUE of a LOADED
cue 0..511 of the list leaves it ARMED with its late mark off. At the tail it follows the tail, which then names it as
next, and is the new tail, in an empty list also the first; the head stays. After cue x of that list it takes x's next,
becomes x's next and, where x was the tail, the tail; where x's next was the head it becomes the head, and otherwise the
head stays. UNLINK_CUE of the head of a RUNNING list is refused IN_USE; of another cue in a list it leaves the cue
LOADED with next absent and late mark off: its predecessor, the cue of the chain whose next it is, takes its next; first
and head pass to its next where they named it, the tail to its predecessor. ERASE_CUE of a LOADED cue empties it and
returns its records. Every other cue, the other list and every other item of state beside the reload and the reply are
as before. The replies carry the list's ends, nothing, and the free records. That UNLINK_CUE replies no field is log 10,
and the list and trigger that stand in a cue after ERASE_CUE are log 1, and that a command row after the frame start's
is the one taken after the evaluation is log 4: the model's choices. (R172, R173, R174, R183, log 1 (DESIGN CHOICE), log
4 (DESIGN CHOICE), log 10 (DESIGN CHOICE)) -/
def Obligations.CueEditsComplete : Prop :=
  (∀ (s : State) (l c : Nat),
    (∀ p, s.predecessor l c = some p → p ∈ s.chain l ∧ (s.cue p).next = some c) ∧
    (s.predecessor l c = none → ∀ p ∈ s.chain l, (s.cue p).next ≠ some c)) ∧
  ∀ (s : State) (h : Header) (c : Half), c.toNat ≤ 511 →
    let u := (s.met h).evaluateAll 40
    let x := u.cue c.toNat
    let others (t : State) (l : Nat) (changed : List Nat) : Prop :=
      (∀ y, y ∉ changed → t.cue y = u.cue y) ∧ (∀ m, m ≠ l → t.list m = u.list m) ∧
        t = { u with cues := t.cues, lists := t.lists }
    u.work.evaluation = none ∧ (s.work.evaluation = none → u = s.met h) ∧
    (∀ (lb : Byte) (l : Nat), Admitted s h (.linkCue h lb c .tail) → listOf lb = some l → u.mayEdit h l = true →
      x.state = .loaded → x.list = l →
      ∃ t, exec (.linkCue h lb c .tail) s = .next (s.accepted h (.linkCue h lb c .tail) t false (t.linkFields l)) ∧
        (t.list l =
          { u.list l with
            first := if (u.list l).tail = none then some c.toNat else (u.list l).first, tail := some c.toNat }) ∧
        ((u.list l).tail ≠ some c.toNat → t.cue c.toNat = { x with state := .armed, late := false, next := none }) ∧
        (∀ y, (u.list l).tail = some y → y ≠ c.toNat → t.cue y = { u.cue y with next := some c.toNat }) ∧
        others t l (c.toNat :: (u.list l).tail.toList)) ∧
    (∀ (lb : Byte) (l : Nat) (y : Half), Admitted s h (.linkCue h lb c (.after y)) → listOf lb = some l →
      u.mayEdit h l = true → x.state = .loaded → x.list = l → y.toNat ≤ 511 → (u.cue y.toNat).inList = true →
      (u.cue y.toNat).list = l →
      ∃ t, exec (.linkCue h lb c (.after y)) s =
          .next (s.accepted h (.linkCue h lb c (.after y)) t false (t.linkFields l)) ∧
        t.cue c.toNat = { x with state := .armed, late := false, next := (u.cue y.toNat).next } ∧
        t.cue y.toNat = { u.cue y.toNat with next := some c.toNat } ∧
        ((u.cue y.toNat).next = none → t.list l = { u.list l with tail := some c.toNat }) ∧
        (∀ n, (u.cue y.toNat).next = some n → (u.list l).head = some n →
          t.list l = { u.list l with head := some c.toNat }) ∧
        (∀ n, (u.cue y.toNat).next = some n → (u.list l).head ≠ some n → t.list l = u.list l) ∧
        others t l [c.toNat, y.toNat]) ∧
    (Admitted s h (.unlinkCue h c) → u.mayEdit h x.list = true → x.inList = true →
      ((u.list x.list).state = .running → (u.list x.list).head = some c.toNat →
        exec (.unlinkCue h c) s = .next (s.refusedAt h (.unlinkCue h c) .inUse)) ∧
      (¬((u.list x.list).state = .running ∧ (u.list x.list).head = some c.toNat) →
      ∃ t, exec (.unlinkCue h c) s = .next (s.accepted h (.unlinkCue h c) t false []) ∧
        t.cue c.toNat = { x with state := .loaded, next := none, late := false } ∧
        (∀ p, u.predecessor x.list c.toNat = some p → p ≠ c.toNat → t.cue p = { u.cue p with next := x.next }) ∧
        (t.list x.list =
          { u.list x.list with
            first := if (u.list x.list).first = some c.toNat then x.next else (u.list x.list).first
            tail := if (u.list x.list).tail = some c.toNat then u.predecessor x.list c.toNat else (u.list x.list).tail
            head := if (u.list x.list).head = some c.toNat then x.next else (u.list x.list).head }) ∧
        others t x.list (c.toNat :: (u.predecessor x.list c.toNat).toList))) ∧
    (Admitted s h (.eraseCue h c) → s.mayEdit h (s.cue c.toNat).list = true → (s.cue c.toNat).state = .loaded →
      exec (.eraseCue h c) s = .next (s.accepted h (.eraseCue h c)
        (({ s.met h with actionFree := s.actionFree ++ (s.cue c.toNat).chain }).setCue c.toNat
          { state := .empty, list := 0, trigger := .go, next := none, chain := [], late := false }) false
        (u16 (s.actionFree.length + (s.cue c.toNat).chain.length))))

/-- O37. For every admitted frame on list 0 or 1: SET_LIST from source 0 or 1 on a STOPPED list, with an acting source
0..4 that has may-force or no cue of the list needing it, stores the acting source and the loop. START_LIST, STOP_LIST
and GO are judged by the lists as the evaluation of the last frame start has left them, none of it then outstanding.
START_LIST from a source that may edit, on a list that has a first cue, is refused IN_USE on a RUNNING list; on another
it arms the list's cues and sets it RUNNING with the head at the first cue, the passes of its loop and a last fire two
frames on, and with no evaluation outstanding the list is first evaluated at the next frame start. STOP_LIST stops a
RUNNING or ENDED list, its GO no longer pending, and changes nothing on a STOPPED one; GO from SAFETY or the acting
source sets the GO of a RUNNING list with none pending and is refused LIST_ENDED, NOT_RUNNING or ALREADY_PENDING
otherwise; GO from another source is refused NOT_PERMITTED. The replies carry the descriptor, GO's the frame counter
and the head. The bytes of the descriptor are log 10; that a command row after the frame start's is the one taken
after the evaluation is log 4. (R175, R176, R177, R183, log 4 (DESIGN CHOICE), log 10 (DESIGN CHOICE)) -/
def Obligations.ListCommandsComplete : Prop :=
  ∀ (s : State) (h : Header) (lb : Byte) (l : Nat), listOf lb = some l →
    (∀ a n : Byte, Admitted s h (.setList h lb a n) → h.src ≤ 1 → a.toNat ≤ 4 → (s.list l).state = .stopped →
      ((s.source a.toNat).mayForce = true ∨ s.listNeedsForce l = false) →
      exec (.setList h lb a n) s = .next (s.accepted h (.setList h lb a n)
        ((s.met h).setList l { s.list l with acting := a.toNat, loop := n.toNat }) false
        ({ s.list l with acting := a.toNat, loop := n.toNat } : CueList).bytes)) ∧
    let u := (s.met h).evaluateAll 40
    u.work.evaluation = none ∧ (s.work.evaluation = none → u = s.met h) ∧
    (Admitted s h (.startList h lb) → u.mayEdit h l = true → (u.list l).first ≠ none →
      ((u.list l).state = .running → exec (.startList h lb) s = .next (s.refusedAt h (.startList h lb) .inUse)) ∧
      ((u.list l).state ≠ .running →
        exec (.startList h lb) s = .next (s.accepted h (.startList h lb)
          ((u.armList l).setList l
            { u.list l with
              state := .running, head := (u.list l).first, passes := if (u.list l).loop = 255 then 0 else (u.list l).loop,
              goPending := false, lastFire := s.timer.counter + 2 }) false
          ({ u.list l with
              state := .running, head := (u.list l).first, passes := if (u.list l).loop = 255 then 0 else (u.list l).loop,
              goPending := false, lastFire := s.timer.counter + 2 } : CueList).bytes) ∧
        (u.armList l).work.evaluation = none)) ∧
    (Admitted s h (.stopList h lb) → u.mayEdit h l = true → (u.list l).state ≠ .stopped →
      exec (.stopList h lb) s = .next (s.accepted h (.stopList h lb)
        (u.setList l { u.list l with state := .stopped, goPending := false }) false
        ({ u.list l with state := .stopped, goPending := false } : CueList).bytes)) ∧
    (Admitted s h (.stopList h lb) → u.mayEdit h l = true → (u.list l).state = .stopped →
      exec (.stopList h lb) s = .next (s.accepted h (.stopList h lb) u false (u.list l).bytes)) ∧
    (Admitted s h (.go h lb) → h.src ≠ 0 → h.src ≠ (u.list l).acting →
      exec (.go h lb) s = .next (s.refusedAt h (.go h lb) .notPermitted)) ∧
    (Admitted s h (.go h lb) → h.src = 0 ∨ h.src = (u.list l).acting →
      ((u.list l).state = .running → (u.list l).goPending = false →
        exec (.go h lb) s = .next (s.accepted h (.go h lb) (u.setList l { u.list l with goPending := true })
          false (be32 s.timer.counter ++ opt16 (u.list l).head))) ∧
      ((u.list l).state = .running → (u.list l).goPending = true →
        exec (.go h lb) s = .next (s.refusedAt h (.go h lb) .alreadyPending)) ∧
      ((u.list l).state = .ended → exec (.go h lb) s = .next (s.refusedAt h (.go h lb) .listEnded)) ∧
      ((u.list l).state = .stopped → exec (.go h lb) s = .next (s.refusedAt h (.go h lb) .notRunning)))

/-- O38. For every running part whose next due entry is e: a SET_POINT whose kind suits the binding, whose kind change
no contribution covers, and whose point of kind SOURCE holds no force or a PARK up to 12, replaces the point's six
fields and keeps its binding; a BIND_POINT whose binding allows the point's kind and whose outputs no other point
holds empties the old outputs, names the point in the new ones and stores the binding; a LOAD_CURVE replaces the
curve's knots; a SET_WORKLIGHT_LEVEL the level; a SET_TILE the tile's six fields, ending a dissolve whose count is
at or above the new length. The entry leaves the queue, and the frame work set free goes on. That e reads 0 after
SET_TILE drops a from source is log 22 (DEDUCED); the due marks and the frame work that goes on are log 4. (R24,
R26, R35, R85, R131, R155, log 4 (DESIGN CHOICE), log 22 (DEDUCED)) -/
def Obligations.ConfigurationEntriesApply : Prop :=
  ∀ (s : State) (e : Entry) (rest : List Entry), DueFirst s e rest →
    (∀ p f, e.body = .setPoint p f → (s.point p).binding.allows f.kind = true →
      (f.kind = (s.point p).fields.kind ∨ s.slotsWhere (fun c => s.covers c.selector p) = []) →
      (f.kind = .source → ∀ x, s.force p = some x → x.mode = .park ∧ x.value ≤ 12) →
      exec .setPointApply s = .next (({ s with queue := rest }.setPoint p
        { s.point p with
          fields := f, retake := (s.point p).retake || f.kind != (s.point p).fields.kind }).advance)) ∧
    (∀ p b, e.body = .bindPoint p b → b.allows (s.point p).fields.kind = true →
      (∀ k ∈ b.outputs, ∀ q, s.occupant k = some q → q = p) →
      exec .bindPointApply s = .next (((({ s with queue := rest }.setOccupants none
        (s.point p).binding.outputs).setOccupants (some p) b.outputs).setPoint p
          { s.point p with binding := b }).advance)) ∧
    (∀ c knots, e.body = .loadCurve c knots →
      exec .loadCurveApply s = .next (({ s with queue := rest }.setCurve c knots).advance)) ∧
    (∀ v, e.body = .setWorklightLevel v →
      exec .setWorklightLevelApply s = .next ({ s with queue := rest, workLight := v }.advance)) ∧
    (∀ t f, e.body = .setTile t f →
      exec .setTileApply s = .next (({ s with queue := rest }.setTile t
        (if (s.tile t).fromSource.isSome = true ∧ f.dissolve ≤ (s.tile t).elapsed then
          { s.tile t with fields := f, fromSource := none, fromStore := none, elapsed := 0 }
        else { s.tile t with fields := f })).advance))

/-- O39. For every state in which an output's entry of the occupancy map names exactly the point whose binding covers
it: after the application of any BIND_POINT entry at its turn by its row the same holds, whether it is applied or
dropped. And after a step by any command, a frame start or a render complete that applies BIND_POINT or SET_POINT
entries, a read that takes the application first, a reset and a step of an empty queue among them, the same holds, the
stores being canonical before it. The canonical form that the step clause asks of the stores is log 29, a DESIGN CHOICE;
every step keeps it by a statement of its own. That a render complete and the next frame start apply entries that no row
has taken is log 4. (R21, R24, R26, log 4 (DESIGN CHOICE), log 29 (DESIGN CHOICE)) -/
def Obligations.BindingKeepsTheOccupancyMap : Prop :=
  (∀ (s t : State) (e : Entry) (rest : List Entry) (p : Nat) (b : Binding), OccupancyAgrees s → DueFirst s e rest →
      e.body = .bindPoint p b → exec .bindPointApply s = .next t → OccupancyAgrees t) ∧
  ∀ s t : State, Canonical s → OccupancyAgrees s → step s = .next t → OccupancyAgrees t

/-- O40. For every running part whose next due entry is e: a TAKE whose handle still matches and whose source is not
LOST with loss policy RELEASE takes the next sequence, its level words the merged levels of the last render, and is
HELD with a fade-in of 0 and FADING_IN otherwise; where its owner's name is held, the holder is released with the
new fade-in length, and the name then finds the new slot. A RELEASE of a FADING_IN or HELD contribution releases it
with the FADE value or its stored fade-out; of a PENDING one it frees it and withdraws its TAKE. RELEASE_SOURCE
releases every FADING_IN and HELD contribution of its target in slot order. PAUSE and RESUME set the paused flag of
a fading contribution. Slot order is log 14 (DEDUCED), the stored fade-out beside the fade-out length log 30, the
due marks and the frame work that goes on are log 4. (R64, R65, R70, R71, R76, R85, log 4 (DESIGN CHOICE), log 14
(DEDUCED), log 30 (DEDUCED)) -/
def Obligations.ContributionEntriesApply : Prop :=
  ∀ (s : State) (e : Entry) (rest : List Entry), DueFirst s e rest →
    (∀ hd c, e.body = .take hd → s.matching hd = some c → ¬((s.source c.owner).state = .lost ∧ c.policy = .release) →
      let u := (({ s with queue := rest, sequence := s.sequence + 1 }).setWords c.chain 0
        (s.startValues c)).setRecord hd.slot
          { c with sequence := some (s.sequence + 1), phase := if c.fadeIn = 0 then .held else .fadingIn, elapsed := 0,
                   paused := false, fresh := true }
      (c.name = 0 → exec .takeApply s = .next u.advance) ∧
      (c.name ≠ 0 → u.named c.owner c.name = none →
        exec .takeApply s = .next (u.setNamed c.owner c.name (some hd.slot)).advance) ∧
      (∀ k, c.name ≠ 0 → u.named c.owner c.name = some k →
        exec .takeApply s = .next ((u.release k c.fadeIn).setNamed c.owner c.name (some hd.slot)).advance)) ∧
    (∀ a fade k c, e.body = .release a fade → s.find e.source a = some (k, c) →
      (c.phase = .fadingIn ∨ c.phase = .held →
        exec .releaseApply s = .next (({ s with queue := rest }.release k (fade.getD c.storedFadeOut)).advance)) ∧
      (c.phase = .pending →
        exec .releaseApply s = .next ((({ s with queue := rest }.withdrawTake (s.handleOf k)).free k).advance)) ∧
      (c.phase = .fadingOut → fade ≠ some 0 → exec .releaseApply s = .next ({ s with queue := rest }.advance)) ∧
      (c.phase = .fadingOut → fade = some 0 →
        exec .releaseApply s = .next (({ s with queue := rest }.free k).advance))) ∧
    (∀ n fade, e.body = .releaseSource n fade →
      exec .releaseSourceApply s = .next (({ s with queue := rest }.each
        (fun t k => t.release k (fade.getD (((s.slot k).record.map Contribution.storedFadeOut).getD 0)))
        (s.slotsWhere fun (c : Contribution) => c.owner == n && (c.phase == Phase.fadingIn || c.phase == Phase.held))).advance)) ∧
    (∀ a k c, s.find e.source a = some (k, c) → c.phase = .fadingIn ∨ c.phase = .fadingOut →
      (e.body = .pause a →
        exec .pauseApply s = .next (({ s with queue := rest }.setRecord k { c with paused := true }).advance)) ∧
      (e.body = .resume a →
        exec .resumeApply s = .next (({ s with queue := rest }.setRecord k { c with paused := false }).advance)))

/-- O41. For every running part whose next due entry is e: a FORCE_SET over a group of stride at least 1, no point of
which another owner forces (or the entry is SAFETY's) and whose value suits the SOURCE points it covers, leaves each
covered point with its mode, its value at that position and the source as owner, and the other points' forces as
before; a FORCE_CLEAR under the same ownership leaves each covered point without a force; FREEZE below 255 and THAW
above 0 move the group's count by one; MASTER_SET with length 0 leaves the master STEADY at the target, and with
another length FADING from its level. For every running part whose next due entry is e: PLATE_PLAY takes a STOPPED
plate to PLAYING where it stands, an ENDED or FAULT one to PLAYING from image 0, and leaves a PLAYING one alone;
PLATE_STOP takes a PLAYING, ENDED or FAULT plate to STOPPED where it stands and leaves a STOPPED one alone. On an
UNDEFINED plate both are dropped PLATE_UNDEFINED. That start, length and elapsed of a STEADY master are 0 is log 1,
the marks and the frame work that goes on are log 4: the model's choices. (R85, R121, R122, R124, R128, R148, log 1
(DESIGN CHOICE), log 4 (DESIGN CHOICE)) -/
def Obligations.OverrideAndPlateEntriesApply : Prop :=
  (∀ (s : State) (e : Entry) (rest : List Entry), DueFirst s e rest →
      (∀ x m v, e.body = .forceSet x m v → 1 ≤ (s.group x.group).stride → s.forceForeign e.source x = false →
        s.forceUnsuits x m v = false →
        ∃ t : State, exec .forceSetApply s = .next t.advance ∧ t = { s with queue := rest, forces := t.forces } ∧
          (∀ i < x.count, t.force (s.coveredPoint x i) = some ⟨m, v.at i, e.source⟩) ∧
          ∀ p, p ∉ s.coveredPoints x → t.force p = s.force p) ∧
      (∀ x, e.body = .forceClear x → s.forceForeign e.source x = false →
        ∃ t : State, exec .forceClearApply s = .next t.advance ∧ t = { s with queue := rest, forces := t.forces } ∧
          (∀ p ∈ s.coveredPoints x, t.force p = none) ∧ ∀ p, p ∉ s.coveredPoints x → t.force p = s.force p) ∧
      (∀ g, e.body = .freeze g → s.freezeCount g < 255 →
        exec .freezeApply s = .next (({ s with queue := rest }.setFreezeCount g (s.freezeCount g + 1)).advance)) ∧
      (∀ g, e.body = .thaw g → 0 < s.freezeCount g →
        exec .thawApply s = .next (({ s with queue := rest }.setFreezeCount g (s.freezeCount g - 1)).advance)) ∧
      (∀ m v f, e.body = .masterSet m v f →
        exec .masterSetApply s = .next (({ s with queue := rest }.setMaster m
          (if f = 0 then { state := .steady, level := v, start := 0, target := v, length := 0, elapsed := 0, fresh := false }
          else { state := .fading, level := (s.master m).level, start := (s.master m).level, target := v, length := f,
                 elapsed := 0, fresh := true })).advance))) ∧
  (∀ (s : State) (e : Entry) (rest : List Entry) (p : Nat), DueFirst s e rest →
      let x := s.plate p
      let u := { s with queue := rest }
      (e.body = .platePlay p → exec .platePlayApply s = .next (State.advance (match x.state with
        | .undefined => u.drop e .plateUndefined
        | .stopped => u.setPlate p { x with state := .playing }
        | .playing => u
        | .ended => u.setPlate p { x with state := .playing, image := 0, held := 0 }
        | .fault => u.setPlate p { x with state := .playing, image := 0, held := 0 }))) ∧
      (e.body = .plateStop p → exec .plateStopApply s = .next (State.advance (match x.state with
        | .undefined => u.drop e .plateUndefined
        | .stopped => u
        | .playing => u.setPlate p { x with state := .stopped }
        | .ended => u.setPlate p { x with state := .stopped }
        | .fault => u.setPlate p { x with state := .stopped }))))

/-- O42. For every running part whose next due entry is e: the drop sets APPLY_FAIL and raises its count by one up to
255, raises the source's apply-fail count by one up to 65535 and stores the last failure record with the running
frame. The reasons: KIND_MISMATCH for SET_POINT, and IN_USE where a contribution covers the point or its force does
not suit a SOURCE point; KIND_MISMATCH and BIND_CONFLICT for BIND_POINT; LOST for a RELEASE-policy TAKE of a LOST
source (its slot FREE); NOT_FOUND for RELEASE, PAUSE and RESUME of nothing; IN_USE for PAUSE and RESUME of a PENDING
or HELD contribution; FORCE_OWNER for a force of another owner; KIND_MISMATCH for a FORCE_SET that does not suit a
SOURCE point; FREEZE_LIMIT at 255; NOT_FROZEN at 0; PLATE_UNDEFINED for an UNDEFINED plate. For every state: after
due entries have been applied in order as often as the queue has entries, no due entry is left, and the entries that
wait are entries that waited before and were not due, in the order they had; each that was not due and is no TAKE
still waits, and each that was not due where no due entry is a RELEASE (a RELEASE of a PENDING contribution
withdraws its TAKE). The due marks and the frame work that goes on are log 4. (R24, R26, R64, R70, R76, R85, R86,
R90, R91, R121, R124, R148, log 4 (DESIGN CHOICE)) -/
def Obligations.ApplicationDropsAndEmptiesTheDueSet : Prop :=
  (∀ (s : State) (e : Entry) (rest : List Entry), DueFirst s e rest →
      let u := { s with queue := rest }
      (∀ r, (u.drop e r).event 6 = ⟨true, saturate 255 (s.event 6).count⟩ ∧
        ((u.drop e r).source e.source).applyFails = saturate 65535 (s.source e.source).applyFails ∧
        (u.drop e r).lastFailure = some ⟨some e.arrival, e.body.kind, e.source, e.origin, e.effective, s.timer.counter, r⟩) ∧
      (∀ p f, e.body = .setPoint p f → (s.point p).binding.allows f.kind = false →
        exec .setPointApply s = .next (u.drop e .kindMismatch).advance) ∧
      (∀ p f, e.body = .setPoint p f → (s.point p).binding.allows f.kind = true → f.kind ≠ (s.point p).fields.kind →
        s.slotsWhere (fun c => s.covers c.selector p) ≠ [] →
        exec .setPointApply s = .next (u.drop e .inUse).advance) ∧
      (∀ p f x, e.body = .setPoint p f → (s.point p).binding.allows f.kind = true →
        (f.kind = (s.point p).fields.kind ∨ s.slotsWhere (fun c => s.covers c.selector p) = []) → f.kind = .source →
        s.force p = some x → x.mode ≠ .park ∨ 12 < x.value →
        exec .setPointApply s = .next (u.drop e .inUse).advance) ∧
      (∀ p b, e.body = .bindPoint p b → b.allows (s.point p).fields.kind = false →
        exec .bindPointApply s = .next (u.drop e .kindMismatch).advance) ∧
      (∀ p b k q, e.body = .bindPoint p b → b.allows (s.point p).fields.kind = true → k ∈ b.outputs →
        s.occupant k = some q → q ≠ p → exec .bindPointApply s = .next (u.drop e .bindConflict).advance) ∧
      (∀ hd c, e.body = .take hd → s.matching hd = some c → (s.source c.owner).state = .lost → c.policy = .release →
        exec .takeApply s = .next ((u.drop e .lost).free hd.slot).advance) ∧
      (∀ a, s.find e.source a = none →
        (∀ fade, e.body = .release a fade → exec .releaseApply s = .next (u.drop e .notFound).advance) ∧
        (e.body = .pause a → exec .pauseApply s = .next (u.drop e .notFound).advance) ∧
        (e.body = .resume a → exec .resumeApply s = .next (u.drop e .notFound).advance)) ∧
      (∀ a k c, s.find e.source a = some (k, c) → c.phase = .pending ∨ c.phase = .held →
        (e.body = .pause a → exec .pauseApply s = .next (u.drop e .inUse).advance) ∧
        (e.body = .resume a → exec .resumeApply s = .next (u.drop e .inUse).advance)) ∧
      (∀ x, s.forceForeign e.source x = true →
        (∀ m v, e.body = .forceSet x m v → exec .forceSetApply s = .next (u.drop e .forceOwner).advance) ∧
        (e.body = .forceClear x → exec .forceClearApply s = .next (u.drop e .forceOwner).advance)) ∧
      (∀ x m v, e.body = .forceSet x m v → s.forceForeign e.source x = false → s.forceUnsuits x m v = true →
        exec .forceSetApply s = .next (u.drop e .kindMismatch).advance) ∧
      (∀ p, (s.plate p).state = .undefined →
        (e.body = .platePlay p → exec .platePlayApply s = .next (u.drop e .plateUndefined).advance) ∧
        (e.body = .plateStop p → exec .plateStopApply s = .next (u.drop e .plateUndefined).advance)) ∧
      (∀ g, e.body = .freeze g → 255 ≤ s.freezeCount g →
        exec .freezeApply s = .next (u.drop e .freezeLimit).advance) ∧
      (∀ g, e.body = .thaw g → s.freezeCount g = 0 → exec .thawApply s = .next (u.drop e .notFrozen).advance)) ∧
  (∀ s : State, (s.applyDue s.queue.length).noneDue = true ∧
      (s.applyDue s.queue.length).queue.Sublist (s.queue.filter fun e => !e.due) ∧
      (∀ e ∈ s.queue, e.due = false → (∀ hd, e.body ≠ .take hd) → e ∈ (s.applyDue s.queue.length).queue) ∧
      ((∀ e ∈ s.queue, e.due = true → ∀ a fade, e.body ≠ .release a fade) →
        (s.applyDue s.queue.length).queue = s.queue.filter fun e => !e.due))

/-- O43. For every state: a lamp slot that no point holds has value 0, one of width 1 the level product of the output
and 255, and one of width 2 the output's high byte first; a tile parameter that no point holds is 65535, SOURCE 0.
For every running part whose render pass is in progress with its cue evaluation ended and no SOFT_CLEAR waiting,
after the render complete: an enabled line has taken the set of slot values with the next sequence, begun where it
was IDLE, waiting with a slip (a drop where one waited) and OUTPUT_SLIP where it was SENDING, and a disabled line is
as before; each tile has its parameters, its frozen flag and its wanted source. A STANDBY link with no enabled tile
of GAIN above 0 is as before, with one it is WAKING with a BLACK frame, a WAKING one takes a BLACK frame, and an
ACTIVE one that is lit has idle count 0 and takes a frame of its tiles, each begun or waiting by the same rule; an
idle one counts, and one that reaches its idle period is left to LINK_IDLE_EXPIRY (log 4). (R22, R115, R137, R138,
R156, R160, R161, R162, R163, log 4 (DESIGN CHOICE)) -/
def Obligations.RenderCompleteHandsItsOutputsOver : Prop :=
  (∀ (s : State) (l j : Nat), j < 384 → (s.lineValues l).get SlotValue.por j = s.lampValue l j) ∧
  (∀ (s : State) (l j : Nat), (s.occupant (lampOutput l j) = none → s.lampValue l j = 0) ∧
    ∀ p m first, s.occupant (lampOutput l j) = some p →
      ((s.point p).binding = .lamp m first 1 → s.lampValue l j = levelProduct (s.result p).output 255) ∧
      ((s.point p).binding = .lamp m j 2 → s.lampValue l j = (s.result p).output / 256) ∧
      ((s.point p).binding = .lamp m first 2 → j ≠ first → s.lampValue l j = (s.result p).output % 256)) ∧
  (∀ (s : State) (k : Nat) (q : Param) (empty : Nat),
    (s.occupant (tileOutput k q) = none → s.tileParam k q empty = empty) ∧
    ∀ p, s.occupant (tileOutput k q) = some p → s.tileParam k q empty = (s.result p).output) ∧
  ∀ s : State, s.device = .running → s.work.phase = .rendering → s.work.evaluation = none → s.softClear ≠ .waiting →
    ∃ t, exec .renderComplete s = .next t ∧
      (∀ l < 8,
        let x := s.line l
        let n := (x.sequence + 1) % 256
        (x.enabled = false → t.line l = x) ∧
        (x.enabled = true → x.inFlight = none →
          t.line l = { x with sequence := n, inFlight := some ⟨n, x.count, x.rate, s.publish.lineValues l⟩ }) ∧
        (x.enabled = true → x.inFlight ≠ none → (t.event 12).pending = true ∧
          t.line l = { x with sequence := n, waiting := some ⟨n, s.publish.lineValues l⟩, slips := saturate 65535 x.slips,
                              drops := if x.waiting.isSome then saturate 65535 x.drops else x.drops })) ∧
      (∀ k < 64, (t.tile k).params = s.publish.tileParams k ∧ (t.tile k).frozen = s.publish.tileFrozen k ∧
        (t.tile k).current = s.wantedSource (s.publish.tileParams k).source ∧
        (t.tile k).fields = (s.tile k).fields) ∧
      ∀ l < 4,
        let x := s.link l
        let n := (x.sequence + 1) % 256
        let lit := ∃ k < 64, (s.tile k).fields.enabled = true ∧ (s.tile k).fields.link = l ∧
          (s.publish.tileParams k).gain ≠ 0
        let takes (y : Link) (content : LinkContent) : Prop :=
          let f : LinkFrame := ⟨n, s.timer.counter, s.timer.timedFromRef, content, false⟩
          (x.inFlight = none → t.link l = { y with sequence := n, inFlight := some ⟨f, 0⟩ }) ∧
          (x.inFlight ≠ none → (t.event 12).pending = true ∧
            t.link l = { y with sequence := n, waiting := some f, slips := saturate 65535 x.slips,
                                drops := if x.waiting.isSome then saturate 65535 x.drops else x.drops })
        (x.state = .standby → ¬lit → t.link l = x) ∧
        (x.state = .standby → lit → takes { x with state := .waking, wakeCount := 0 } .black) ∧
        (x.state = .waking → takes x .black) ∧
        (x.state = .active → (x.idlePeriod = 0 ∨ lit ∨ saturate 65535 x.idleCount < x.idlePeriod) →
          ∃ places idle, (lit → idle = 0) ∧ (¬lit → idle = saturate 65535 x.idleCount) ∧
            takes { x with idleCount := idle } (.active places) ∧ places.length = 16 ∧
            ∀ j < 16, ((places.getD j none).map TileSet.tile = s.tileAt l j) ∧
              ∀ v, places.getD j none = some v → v.params = s.publish.tileParams v.tile ∧
                v.current = (t.tile v.tile).current ∧ v.fromSource = (t.tile v.tile).fromSource ∧
                v.elapsed = (t.tile v.tile).elapsed) ∧
        (x.state = .active → 0 < x.idlePeriod → ¬lit → x.idlePeriod ≤ saturate 65535 x.idleCount →
          l ∈ t.work.idleDue ∧ t.link l = { x with idleCount := saturate 65535 x.idleCount })

/-- O44. For every state outside RESET# low with no transaction in progress the fall of CS# moves the reply buffer into
the outgoing reply and begins the transaction. For every running part that is not BUSY: bytes that form a whole
frame of a source 0..4 whose code is not in the command summary are answered UNKNOWN_COMMAND after the source's
reload; bytes that form no frame are answered BAD_LENGTH under the first byte (0 where there is none) with no
reload. For every state with canonical stores: at RESET# low the part is BUSY with ATTN# high, no transaction, no
fetch and every line and link idle; at the rise every item of state is at its reset value but the pins, the time,
the waiting commands and the model's draw counter, and initialisation begins; at its end the part runs, with its
last frame start at that time and no other item of state changed. A SOFT_CLEAR whose records are cleared ends with
BUSY low. That the reply buffer is empty after the fall of CS# is log 23 (DEDUCED), and the row of raw bytes log 3.
What stops at the fall of RESET# and what changes at its rise is log 19 (DEDUCED), the pins kept are log 17, the
draw counter is log 12. A time before the latest reads as the latest, so INITIALISATION_END takes the greater of the
two (log 6). (R3, R49, R185, R186, R189, R193, R194, log 3 (DESIGN CHOICE), log 6 (DESIGN CHOICE), log 12 (DESIGN
CHOICE), log 17 (DESIGN CHOICE), log 19 (DEDUCED), log 23 (DEDUCED)) -/
def Obligations.LinkAndResetRowsComplete : Prop :=
  ((∀ s : State, s.device ≠ .resetLow → s.transaction = false →
      exec .transactionBegin s = .next { s with outgoing := s.reply, reply := [], transaction := true }) ∧
    (∀ (s : State) (time : Nat) (bytes : List Byte), s.device = .running → s.softClear = .none →
      (∀ f : RawFrame, splitFrame bytes = some f → f.source.toNat ≤ 4 → f.code ∉ commandCodes →
        let h : Header := ⟨time, f.source, f.mods⟩
        exec (.unknownCommand time bytes) s = .next (State.resume (s.endTransaction time)
          ((s.met h).replyWith f.code .unknownCommand false []))) ∧
      (splitFrame bytes = none →
        exec (.unknownCommand time bytes) s = .next ((s.endTransaction time).replyWith (bytes.headD 0) .badLength false
          [])))) ∧
  ((∀ s : State, Canonical s →
      ∃ t, exec .resetFall s = .next t ∧ t.device = .resetLow ∧ t.busy = true ∧ t.attention = false ∧
        t.transaction = false ∧ t.softClear = .none ∧ t.fetches = [] ∧ (∀ l, (t.line l).inFlight = none) ∧
        ∀ l, (t.link l).inFlight = none) ∧
    (∀ s : State, s.device = .resetLow → Canonical s →
      ∃ t, exec .resetRise s = .next t ∧
        t = { State.reset with
              pending := s.pending, now := s.now, draws := s.draws, device := .initialising, wltPin := s.wltPin,
              inputs := t.inputs } ∧
        ∀ i, t.input i = { enabled := true, pin := (s.input i).pin, sample := false, shown := false, losses := 0 }) ∧
    (∀ (s : State) (time : Nat), s.device = .initialising →
      exec (.initialisationEnd time) s = .next
        { s with
          now := max s.now time, device := .running, timer := { s.timer with lastFrameStart := max s.now time } }) ∧
    (∀ s : State, s.device = .running → s.softClear = .cleared →
      exec .softClearComplete s = .next { s with softClear := .none }))

/-- O45. For every running part with the reference enabled and a pulse at time t not before the latest time: in FREE_RUN
and HOLDOVER it begins an acquisition; in ACQUIRING a good interval short of the eighth raises the acquire count and
a bad one clears it; the eighth good interval in a row locks to it, with a frame start at t and the flag true, or
without one where a frame start came less than N/4 before; in LOCKED a pulse too early is a REF_GLITCH and changes
nothing else; a good one becomes the held period and issues the frame start at t with the flag true; the fourth bad
pulse in a row with a holdover limit raises REF_LOST, leaves LOCKED for ACQUIRING from HOLDOVER at the held period,
with a limit of 0 for ACQUIRING from FREE_RUN at the nominal period, and its frame start's flag is false (the
reading of log 8). With the reference disabled a pulse changes nothing but the latest time. Where a frame start is
issued, the next state is what frameStart makes of the state after the timer's transition
(FrameStartsBeginTheirWork). That the frame start of an alignment is not counted as one of the holdover it ends is
log 38 (DEDUCED). (R4, R5, R6, R8, R9, R12, R14, R16, log 8 (DEDUCED), log 38 (DEDUCED)) -/
def Obligations.ReferencePulsesComplete : Prop :=
  ∀ (s : State) (t : Nat), s.device = .running → s.now ≤ t →
    let x := s.timer
    let i := x.lastPulse.map fun p => t - p
    let starts (y : Timer) (raised : State → State) (flag : Bool) : Prop :=
      ∃ u, exec (.refPulse t) s = .next u ∧ u = (raised ({ s with now := t }.setTimer y)).frameStart t ∧
        u.timer = { y with lastFrameStart := t, counter := x.nextFrame, pendingFrame := none, timedFromRef := flag }
    (x.refEnable = false → exec (.refPulse t) s = .next { s with now := t }) ∧
    (x.refEnable = true →
      (x.state = .freeRun → exec (.refPulse t) s = .next ({ s with now := t }.setTimer
        { x with state := .acquiring, cameFrom := .freeRun, lastPulse := some t, acquireCount := 0,
                 lastInterval := none })) ∧
      (x.state = .holdover → exec (.refPulse t) s = .next ({ s with now := t }.setTimer
        { x with state := .acquiring, cameFrom := .holdover, lastPulse := some t, acquireCount := 0,
                 lastInterval := none })) ∧
      (x.state = .acquiring → x.expiryDue = false →
        (i.any (goodInterval (nominalPeriod x.rate)) = true → x.acquireCount < 7 →
          exec (.refPulse t) s = .next ({ s with now := t }.setTimer
            { x with lastInterval := i, lastPulse := some t, acquireCount := x.acquireCount + 1 })) ∧
        (i.any (goodInterval (nominalPeriod x.rate)) = false →
          exec (.refPulse t) s = .next ({ s with now := t }.setTimer
            { x with lastInterval := i, lastPulse := some t, acquireCount := 0 })) ∧
        (∀ d, i = some d → goodInterval (nominalPeriod x.rate) d = true → 7 ≤ x.acquireCount →
          let y : Timer :=
            { x with
              state := .locked, heldPeriod := d, lastInterval := some d, lastPulse := some t, acquireCount := 0,
              badRun := 0, holdoverCount := 0, expiryDue := false, lastFrameStart := t }
          (x.lastFrameStart + nominalPeriod x.rate / 4 ≤ t → starts y (State.raise · .refLocked) true) ∧
          (t < x.lastFrameStart + nominalPeriod x.rate / 4 →
            exec (.refPulse t) s = .next (({ s with now := t }.setTimer y).raise .refLocked)))) ∧
      (x.state = .locked →
        (t < x.lastFrameStart + (nominalPeriod x.rate - nominalPeriod x.rate / 8) →
          exec (.refPulse t) s = .next ({ s with now := t }.raise .refGlitch)) ∧
        (x.lastFrameStart + (nominalPeriod x.rate - nominalPeriod x.rate / 8) ≤ t →
          (∀ d, i = some d → goodInterval (nominalPeriod x.rate) d = true →
            starts { x with heldPeriod := d, lastInterval := some d, lastPulse := some t, badRun := 0 } id true) ∧
          (i.any (goodInterval (nominalPeriod x.rate)) = false → x.badRun < 3 →
            starts { x with lastInterval := i, lastPulse := some t, badRun := x.badRun + 1 } id true) ∧
          (i.any (goodInterval (nominalPeriod x.rate)) = false → 3 ≤ x.badRun → x.holdoverLimit ≠ 0 →
            starts
              { x with
                state := .acquiring, cameFrom := .holdover, unlockCause := .drift, acquireCount := 0, badRun := 0,
                holdoverCount := 0, localPeriod := x.heldPeriod, lastInterval := i, lastPulse := some t }
              (State.raise · .refLost) false) ∧
          (i.any (goodInterval (nominalPeriod x.rate)) = false → 3 ≤ x.badRun → x.holdoverLimit = 0 →
            starts
              { x with
                state := .acquiring, cameFrom := .freeRun, unlockCause := .drift, acquireCount := 0, badRun := 0,
                heldPeriod := nominalPeriod x.rate, localPeriod := nominalPeriod x.rate, lastInterval := i,
                lastPulse := some t } (State.raise · .refLost) false))))

/-- O46. For every running part with no holdover expiry outstanding: the loss deadline in LOCKED raises REF_LOST with
cause LOSS and, with a holdover limit, enters HOLDOVER at the held period and issues the frame start at the deadline
with the flag true; with limit 0 it enters FREE_RUN, and issues the frame start at the deadline where the next one's
instant has passed. In ACQUIRING from HOLDOVER it returns to HOLDOVER without one; from FREE_RUN it enters FREE_RUN
in the same way. The local timer's expiry in FREE_RUN, and in ACQUIRING from it, issues the frame start one local
period after the last with the flag false; in HOLDOVER, and in ACQUIRING from it, it also counts, and a count that
reaches the limit leaves the expiry outstanding; the flag is true in HOLDOVER short of the limit alone. With the
expiry outstanding HOLDOVER_END raises HOLDOVER_END: in HOLDOVER it enters FREE_RUN, its frame's flag false (log 8),
and issues the next frame start where its instant has passed; in ACQUIRING the timer then comes from FREE_RUN at the
nominal period, and its count stands (log 35). The other rows take an outstanding expiry first. With none
outstanding HOLDOVER_END changes nothing, nor does the local timer in LOCKED, nor the loss deadline in FREE_RUN or
HOLDOVER or without a pulse (log 5). Where a frame start is issued, the next state is what frameStart makes of the
state after the transition. That the expiry is outstanding between its frame start and HOLDOVER_END is log 4. The
deadline and the local period's end are taken at the latest time where that is later (log 6), and an instant equal
to it is left to the local timer (log 7). (R3, R7, R10, R11, R12, R14, R16, log 4, log 5 (DESIGN CHOICE), log 6
(DESIGN CHOICE), log 7 (DEDUCED), log 8 (DEDUCED), log 35 (DEDUCED)) -/
def Obligations.TimerExpiriesComplete : Prop :=
  ∀ s : State, s.device = .running →
    let x := s.timer
    let n := nominalPeriod x.rate
    let next := max s.now (x.lastFrameStart + x.localPeriod)
    let free (y : Timer) : Timer :=
      { y with
        state := .freeRun, heldPeriod := n, localPeriod := n, acquireCount := 0, badRun := 0, holdoverCount := 0,
        lastPulse := none, lastInterval := none, expiryDue := false }
    let starts (i : Instr) (u : State) (t : Nat) (flag : Bool) : Prop :=
      ∃ v, exec i s = .next v ∧ v = u.frameStart t ∧
        v.timer =
          { u.timer with lastFrameStart := t, counter := x.nextFrame, pendingFrame := none, timedFromRef := flag }
    let freed (i : Instr) (u : State) (t : Nat) : Prop :=
      (t ≤ x.lastFrameStart + n → exec i s = .next (u.setTimer (free u.timer))) ∧
      (x.lastFrameStart + n < t → starts i (u.setTimer (free u.timer)) t false)
    (x.expiryDue = false →
      (∀ p, x.lastPulse = some p →
        let t := max s.now (p + n + n / 8)
        let lost := ({ s with now := t }.setTimer { x with unlockCause := .loss }).raise .refLost
        (x.state = .locked → x.holdoverLimit ≠ 0 →
          starts .lossDeadline
            (lost.setTimer
              { x with state := .holdover, unlockCause := .loss, holdoverCount := 0, localPeriod := x.heldPeriod,
                       lastPulse := none, badRun := 0 }) t true) ∧
        (x.state = .locked → x.holdoverLimit = 0 → freed .lossDeadline lost t) ∧
        (x.state = .acquiring → x.cameFrom = .holdover →
          exec .lossDeadline s = .next ({ s with now := t }.setTimer
            { x with state := .holdover, acquireCount := 0, lastPulse := none })) ∧
        (x.state = .acquiring → x.cameFrom = .freeRun → freed .lossDeadline { s with now := t } t)) ∧
      (x.state = .freeRun ∨ x.state = .holdover ∨ x.lastPulse = none → exec .lossDeadline s = .next s) ∧
      (x.state = .locked → exec .localTimerExpiry s = .next s) ∧
      (x.state = .freeRun ∨ (x.state = .acquiring ∧ x.cameFrom = .freeRun) →
        starts .localTimerExpiry { s with now := next } next false) ∧
      (x.state = .holdover ∨ (x.state = .acquiring ∧ x.cameFrom = .holdover) →
        let count := min 65535 (x.holdoverCount + 1)
        let due := decide (x.holdoverLimit = 0 ∨ x.holdoverLimit ≤ count)
        starts .localTimerExpiry
          ({ s with now := next }.setTimer { x with holdoverCount := count, expiryDue := due }) next
          (x.state == .holdover && !due)) ∧
      exec .holdoverEnd s = .next s) ∧
    (x.expiryDue = true →
      (x.state = .holdover →
        freed .holdoverEnd ((s.setTimer { x with timedFromRef := false }).raise .holdoverEnd) s.now) ∧
      (x.state = .acquiring →
        exec .holdoverEnd s = .next ((s.setTimer
          { x with cameFrom := .freeRun, heldPeriod := n, localPeriod := n, expiryDue := false }).raise .holdoverEnd)) ∧
      ∀ u, exec .holdoverEnd s = .next u →
        exec .lossDeadline s = exec .lossDeadline u ∧ exec .localTimerExpiry s = exec .localTimerExpiry u ∧
          (x.state = .acquiring → x.refEnable = true → ∀ t, exec (.refPulse t) s = exec (.refPulse t) u))

/-- O47. For every state and time: a frame start takes what is left of the last frame's work (nothing, where none is
outstanding), delivers the pending frame value or the counter plus one, and leaves no pending value. The due set it
marks is exactly the waiting entries whose effective frame is not after the new number in the wrapping order; the
queue keeps its entries and their order. At a number that is no multiple of the supervision interval the sources are
as they were; at a multiple every LIVE source with a reload is ticked: a counter of 1 is left to SOURCE_LOST,
another falls by one. The cue evaluation stands ready at list A where its head is due, else at list B where its head
is due, else there is none to make. Beside these a frame start changes only what its counts and the beginning of its
render pass change. Settling what is left at this point, and the outstanding tick, are the model's (log 4). (R14,
R16, R45, R46, R84, R85, R178, log 4 (DESIGN CHOICE), log 8 (DEDUCED)) -/
def Obligations.FrameStartsBeginTheirWork : Prop :=
  (∀ s : State, s.work.phase = .idle → s.work.evaluation = none → s.work.idleDue = [] → s.settle = s) ∧
  ∀ (s : State) (t : Nat),
    let m := s.timer.pendingFrame.getD (s.timer.counter + 1)
    let u := s.settle
    let v := s.frameStart t
    (v.timer =
      { s.timer with
        counter := m, pendingFrame := none, lastFrameStart := t
        timedFromRef := s.timer.state == .locked || (s.timer.state == .holdover && !s.timer.expiryDue) }) ∧
    v.queue = u.queue.map (fun e => { e with due := decide (0 ≤ signedDiff m e.effective) }) ∧
    (tickAt u.interval m = false → v.sources = u.sources ∧ v.work.lossDue = []) ∧
    (tickAt u.interval m = true → ∀ n < 5,
      let x := u.source n
      (x.reload = 0 ∨ x.state = .lost → v.source n = x ∧ n ∉ v.work.lossDue) ∧
      (x.reload ≠ 0 → x.state = .live → x.counter ≠ 1 →
        v.source n = { x with counter := x.counter - 1 } ∧ n ∉ v.work.lossDue) ∧
      (x.reload ≠ 0 → x.state = .live → x.counter = 1 → v.source n = x ∧ n ∈ v.work.lossDue)) ∧
    v.work.evaluation = (if v.headDue 0 then some ⟨0, 0⟩ else if v.headDue 1 then some ⟨1, 0⟩ else none) ∧
    v =
      { u with
        timer := v.timer, queue := v.queue, sources := v.sources, slots := v.slots, masters := v.masters
        plates := v.plates, tiles := v.tiles, links := v.links, inputs := v.inputs, fetches := v.fetches
        wltSample := v.wltSample, work := v.work }

/-- O48. For every running part: the outstanding tick of a source leaves it LOST with counter 0, raises SOURCE_LOST, and
releases its FADING_IN and HELD contributions of loss policy RELEASE with its loss fade, in slot order; a slot whose
fade-in ends is HELD with elapsed at its fade-in; one whose fade-out ends is FREE; a master whose fade ends is
STEADY at its target. The frame work set free goes on. For every running part: a PLAYING plate whose hold ends goes
to the next image, or after the last image to image 0 in LOOP, and in HOLD_LAST and BLACK to ENDED on the last image
with PLATE_END; a tile whose dissolve ends has no from source, an empty from store and e 0; a WAKING link whose wake
ends is ACTIVE with idle count 0; with canonical stores a link whose idle period is reached is STANDBY with wake
count 0 and takes one SLEEP frame, begun at once where its transmitter is IDLE, and waiting with a slip, OUTPUT_SLIP
and, where a set was waiting, a drop where it is SENDING. That these ends are rows of their own is log 4, the slot
order of a loss log 14, and that start, length and elapsed of a STEADY master are 0 is log 1. (R46, R47, R72, R75,
R129, R149, R158, R162, R163, log 1 (DESIGN CHOICE), log 4 (DESIGN CHOICE), log 14 (DEDUCED)) -/
def Obligations.CountedEndsComplete : Prop :=
  (∀ s : State, s.device = .running →
      (∀ n : Fin 5, n.val ∈ s.work.lossDue →
        exec (.sourceLost n) s = .next
          (((({ s with work := { s.work with lossDue := s.work.lossDue.filter (· != n.val) } }.setSource n.val
            { s.source n.val with counter := 0, state := .lost }).raise .sourceLost).each
              (fun t k => t.release k (s.source n.val).lossFade)
              (s.slotsWhere fun (c : Contribution) =>
                c.owner == n.val && (c.phase == Phase.fadingIn || c.phase == Phase.held) && c.policy == LossPolicy.release)).advance)) ∧
      (∀ (k : Fin 192) (c : Contribution), k.val ∈ s.work.fadesDue → (s.slot k.val).record = some c →
        (c.phase = .fadingIn → exec (.fadeInComplete k) s = .next
          (((s.setWork { s.work with fadesDue := s.work.fadesDue.filter (· != k.val) }).setRecord k.val
            { c with phase := .held, elapsed := c.fadeIn }).advance)) ∧
        (c.phase = .fadingOut → exec (.fadeOutComplete k) s = .next
          (((s.setWork { s.work with fadesDue := s.work.fadesDue.filter (· != k.val) }).free k.val).advance))) ∧
      (∀ m : Fin 4, m.val ∈ s.work.mastersDue →
        exec (.masterFadeEnd m) s = .next
          (((s.setWork { s.work with mastersDue := s.work.mastersDue.filter (· != m.val) }).setMaster m.val
            { state := .steady, level := (s.master m.val).target, start := 0, target := (s.master m.val).target,
              length := 0, elapsed := 0, fresh := false }).advance))) ∧
  (∀ s : State, s.device = .running →
      (∀ p : Fin 8, p.val ∈ s.work.platesDue → (s.plate p.val).state = .playing →
        let x := s.plate p.val
        let u := s.setWork { s.work with platesDue := s.work.platesDue.filter (· != p.val) }
        (x.image + 1 < s.imageCount x.clip →
          exec (.plateHoldExpiry p) s = .next (u.setPlate p.val { x with image := x.image + 1, held := 0 }).advance) ∧
        (s.imageCount x.clip ≤ x.image + 1 → x.endMode = .loop →
          exec (.plateHoldExpiry p) s = .next (u.setPlate p.val { x with image := 0, held := 0 }).advance) ∧
        (s.imageCount x.clip ≤ x.image + 1 → x.endMode ≠ .loop →
          exec (.plateHoldExpiry p) s = .next ((u.setPlate p.val
            { x with state := .ended, image := s.imageCount x.clip - 1, held := x.hold - 1 }).raise .plateEnd).advance)) ∧
      (∀ t : Fin 64, t.val ∈ s.work.dissolvesDue → (s.tile t.val).fromSource ≠ none →
        exec (.dissolveEnd t) s = .next
          (((s.setWork { s.work with dissolvesDue := s.work.dissolvesDue.filter (· != t.val) }).setTile t.val
            { s.tile t.val with
              fromSource := none, fromStore := none, elapsed := 0 }).advance)) ∧
      (∀ l : Fin 4, l.val ∈ s.work.wakesDue → (s.link l.val).state = .waking →
        exec (.linkWakeComplete l) s = .next
          (((s.setWork { s.work with wakesDue := s.work.wakesDue.filter (· != l.val) }).setLink l.val
            { s.link l.val with state := .active, wakeCount := (s.link l.val).wakeCount + 1, idleCount := 0 }).advance)) ∧
      (∀ l : Fin 4, Canonical s → l.val ∈ s.work.idleDue →
        let x := s.link l.val
        let u := s.setWork { s.work with idleDue := s.work.idleDue.filter (· != l.val) }
        let f : LinkFrame := ⟨(x.sequence + 1) % 256, s.timer.counter, s.timer.timedFromRef, .sleep, false⟩
        (x.inFlight = none → exec (.linkIdleExpiry l) s = .next (u.setLink l.val
          { x with state := .standby, wakeCount := 0, sequence := f.sequence, inFlight := some ⟨f, 0⟩ })) ∧
        (x.inFlight ≠ none → exec (.linkIdleExpiry l) s = .next ((u.setLink l.val
          { x with
            state := .standby, wakeCount := 0, sequence := f.sequence, waiting := some f,
            slips := saturate 65535 x.slips
            drops := if x.waiting.isSome then saturate 65535 x.drops else x.drops }).raise .outputSlip))))

/-- O49. For every state a list's head is due exactly where the list is RUNNING and GO is pending, or the trigger is
AT_FRAME f with f not after the next frame, or FOLLOW d with the next frame at least d after the last fire, in the
wrapping order. For every running part whose evaluation stands at a list with a due head c, fewer than 16 firings in
it and room in the queue for each of c's actions: the cue fires and the evaluation goes on. A firing leaves c FIRED,
the list with no GO pending, the next frame as its last fire and, where c has a next cue, that cue as its head; the
queue gains at most one entry for each action, each of origin c and of the acting source, due at the next frame
start, with consecutive arrival numbers; a cue without a TAKE places one for each action, in action order, formed
from its fields. What follows the last cue of a pass, and a due head that does not fire, are in
PassesEndAndLateHeadsWait. That the evaluation is taken row by row is log 4. (R178, R179, log 4 (DESIGN CHOICE)) -/
def Obligations.CueFiringCompletes : Prop :=
  (∀ (s : State) (l : Nat), s.headDue l = true ↔ (s.list l).state = .running ∧ ∃ c, (s.list l).head = some c ∧
    ((s.list l).goPending = true ∨
      (∃ f, (s.cue c).trigger = .atFrame f ∧ signedDiff f (s.timer.counter + 1) ≤ 0) ∨
      ∃ d, (s.cue c).trigger = .follow d ∧ (d : Int) ≤ signedDiff (s.timer.counter + 1) (s.list l).lastFire)) ∧
  ∀ (s : State) (ev : Evaluation) (c : Nat), s.device = .running → s.work.evaluation = some ev →
    (s.list ev.list).head = some c → s.headDue ev.list = true → ev.fired < 16 →
    (s.cue c).chain.length ≤ s.queueRoom →
      exec .cueFire s = .next (((s.fireCue ev.list c).setEvaluation (some ⟨ev.list, ev.fired + 1⟩)).skipIdle) ∧
      (∀ n, (s.cue c).next = some n →
        (s.fireCue ev.list c).cue c = { s.cue c with state := .fired } ∧
        (s.fireCue ev.list c).list ev.list =
          { s.list ev.list with head := some n, goPending := false, lastFire := s.timer.counter + 1 }) ∧
      ∃ new, (s.fireCue ev.list c).queue = s.queue ++ new ∧ new.length ≤ (s.cue c).chain.length ∧
        (∀ e ∈ new, e.effective = s.timer.counter + 1 ∧ e.origin = .cue c ∧ e.source = (s.list ev.list).acting) ∧
        (∀ (j : Nat) (e : Entry), new[j]? = some e → e.arrival = s.arrival + BitVec.ofNat 32 j) ∧
        ((∀ a ∈ (s.cue c).chain, ∀ t, s.action a ≠ .take t) →
          new.map (fun e => some e.body) = (s.cue c).chain.map fun a => (s.action a).body (s.list ev.list).acting)

/-- O50. For every state and cue c that fires with no next cue: with loop setting 255, or with passes remaining, a new
pass begins: every cue of the list is ARMED with its late mark off, the head is the first cue, the last fire is the
next frame, and the passes fall by one where the loop is not 255; with no pass remaining and another loop the list
is ENDED with no head, its cues but c as they were, c FIRED, and LIST_END is raised. Cues outside the list and the
other list are as they were. For every running part whose evaluation stands at a due head c that does not fire, for
16 firings of the list (cause CAP) or for want of queue room (cause ROOM): c stays the head and the list's
evaluation stops, B's following A's; with the late mark off it is turned on, CUE_LATE is raised and counted and the
list's late record is c, the cause and the running frame; with it on nothing else changes. CUE_FIRE then goes on to
the next list. That the evaluation is taken row by row is log 4, and that a head that fails both tests has cause CAP
is log 40. (R180, R181, R182, log 4 (DESIGN CHOICE), log 40 (DESIGN CHOICE)) -/
def Obligations.PassesEndAndLateHeadsWait : Prop :=
  (∀ (s : State) (l c : Nat), (s.cue c).next = none →
    let d := s.list l
    let t := s.fireCue l c
    let again (passes : Nat) : Prop :=
      t.list l = { d with head := d.first, passes := passes, goPending := false, lastFire := s.timer.counter + 1 } ∧
      (∀ y ∈ s.chain l, t.cue y = { s.cue y with state := .armed, late := false }) ∧
      ∀ y, y ∉ s.chain l → y ≠ c → t.cue y = s.cue y
    (d.loop = 255 → again d.passes) ∧ (d.loop ≠ 255 → 0 < d.passes → again (d.passes - 1)) ∧
    (d.loop ≠ 255 → d.passes = 0 →
      t.list l = { d with state := .ended, head := none, goPending := false, lastFire := s.timer.counter + 1 } ∧
      t.cue c = { s.cue c with state := .fired } ∧ (∀ y, y ≠ c → t.cue y = s.cue y) ∧ (t.event 8).pending = true) ∧
    ∀ m, m ≠ l → t.list m = s.list m) ∧
  ∀ (s : State) (ev : Evaluation) (c : Nat) (cause : LateCause), s.device = .running → s.work.evaluation = some ev →
    (s.list ev.list).head = some c → s.headDue ev.list = true →
    (16 ≤ ev.fired ∧ cause = .cap) ∨ (ev.fired < 16 ∧ s.queueRoom < (s.cue c).chain.length ∧ cause = .room) →
    let u := s.setWork { s.work with evaluation := if ev.list = 0 then some ⟨1, 0⟩ else none }
    let held := ((u.setCue c { s.cue c with late := true }).setList ev.list
      { s.list ev.list with lastLate := some ⟨c, cause, s.timer.counter⟩ }).raise .cueLate
    ((s.cue c).late = true → s.evaluateOnce = (u, false)) ∧ ((s.cue c).late = false → s.evaluateOnce = (held, false)) ∧
      exec .cueFire s = .next (s.evaluateOnce.1.evaluateOnce.1.skipIdle)

/-- O51. For every running part whose phase mark says that a render pass is in progress, whose evaluation mark says that
no cue evaluation is outstanding, and with no SOFT_CLEAR waiting: the render complete leaves every point 0..2559
with the results the pass formed for it, the number of the running frame, the WLT sample of the pass, and the
model's phase mark idle; the Change Queue, the contribution records and the Frame Timer are as they were. The
hypotheses on the phase mark and the evaluation mark, and the phase mark left idle, speak of the model's own marks
of outstanding work, its choice (log 4). (R96, R98, R113, R132, log 4 (DESIGN CHOICE)) -/
def Obligations.RenderCompletePublishes : Prop :=
  ∀ s : State, s.device = .running → s.work.phase = .rendering → s.work.evaluation = none → s.softClear ≠ .waiting →
    ∃ t, exec .renderComplete s = .next t ∧ (∀ p < 2560, t.result p = s.renderPoint p) ∧
      t.renderFrame = some s.timer.counter ∧ t.wltRendered = s.wltSample ∧ t.work.phase = .idle ∧ t.queue = s.queue ∧
      t.slots = s.slots ∧ t.timer = s.timer

/-- O52. For every running part: an enabled line with a waiting set begins it at the stored slot count and rate when its
frame ends, and a line with none is idle; a link whose last packet ends with no set waiting is idle, with a waiting
set it begins that set's first packet (the stores being canonical), and one with packets left goes to the next
place: a BLACK packet where no tile holds it, and the tile's IMAGE packet where one does, which sends and stores the
pixel path's image where no fetch of the tile is late (the pictures taken at the packet's beginning, log 32). A line
with no frame in flight, disabled or between frames, is at its idle level, high; one with a frame of s slots sends 4
+ s characters back to back, header and slots, each a low start bit, eight data bits, bit 0 first, the frame-mark,
high on the first character alone, and a high stop bit, and is high behind them. An enabled line that is SENDING
with nothing waiting sends the same frame next whether its frame end comes before or after a render complete. What
the set of a packet holds, which store it reads and what makes it late are log 16 (DEDUCED), and the draw counter
that rises by one is log 12. (R135, R137, R138, R139, R152, R159, R160, R161, log 12 (DESIGN CHOICE), log 16
(DEDUCED), log 32 (DESIGN CHOICE)) -/
def Obligations.TransmitterEndsComplete : Prop :=
  (∀ (s : State) (l : Fin 8), s.device = .running →
    (∀ f v, (s.line l.val).inFlight = some f → (s.line l.val).waiting = some v → (s.line l.val).enabled = true →
      exec (.lineFrameEnd l) s = .next (s.setLine l.val
        { s.line l.val with
          inFlight := some ⟨v.sequence, (s.line l.val).count, (s.line l.val).rate, v.values⟩, waiting := none })) ∧
    ((s.line l.val).waiting = none →
      exec (.lineFrameEnd l) s = .next (s.setLine l.val { s.line l.val with inFlight := none }))) ∧
  (∀ (s : State) (l : Fin 4) (f : LinkSending), s.device = .running → (s.link l.val).inFlight = some f →
    (f.frame.packets ≤ f.place + 1 → (s.link l.val).waiting = none →
      exec (.tilePacketEnd l) s = .next (s.setLink l.val { s.link l.val with inFlight := none })) ∧
    (f.place + 1 < f.frame.packets → f.frame.setAt (f.place + 1) = none →
      exec (.tilePacketEnd l) s = .next (s.setLink l.val
        { s.link l.val with inFlight := some ⟨f.frame, f.place + 1⟩ })) ∧
    (∀ v, f.place + 1 < f.frame.packets → f.frame.setAt (f.place + 1) = some v →
      exec (.tilePacketEnd l) s = .next ((s.setLink l.val
        { s.link l.val with inFlight := some ⟨f.frame, f.place + 1⟩ }).beginImage f.frame.past v)) ∧
    (∀ w, Canonical s → f.frame.packets ≤ f.place + 1 → (s.link l.val).waiting = some w →
      exec (.tilePacketEnd l) s = .next ((s.setLink l.val
        { s.link l.val with inFlight := some ⟨w, 0⟩, waiting := none }).beginPacket w 0))) ∧
  (∀ (s : State) (past : Bool) (v : TileSet), s.lateSources v.tile = [] →
    s.beginImage past v =
      { s.setTile v.tile { s.tile v.tile with lastSent := s.outputImage past v } with draws := s.draws + 1 }) ∧
  (∀ (x : Line) (n k : Nat), (x.inFlight = none → x.level n k = true) ∧
    ∀ f, x.inFlight = some f →
      (f.bytes n = u8 n ++ u8 f.sequence ++ u16 f.count ++
        (List.range f.count).map (fun j => BitVec.ofNat 8 (f.values.get SlotValue.por j))) ∧
      (11 * (4 + f.count) ≤ k → x.level n k = true) ∧
      ∀ j < 4 + f.count, x.level n (11 * j) = false ∧
        (∀ b < 8, x.level n (11 * j + 1 + b) = ((f.bytes n).getD j 0).getLsbD b) ∧
        x.level n (11 * j + 9) = decide (j = 0) ∧ x.level n (11 * j + 10) = true) ∧
  ∀ (x : Line) (f : LineFrame) (values : Table Nat), x.enabled = true → x.inFlight = some f → x.waiting = none →
    (x.endFrame.takeSet values).inFlight = (x.takeSet values).endFrame.inFlight ∧
      (x.endFrame.takeSet values).sequence = (x.takeSet values).endFrame.sequence

/-- O53. For every running part whose fetch list has, behind fetches that have ended, one that has not: the port reads
its next address. A read completion writes its words into the fetch's line and goes to the next line while lines
remain, and with the last line ends the fetch and fills the store of its tile for that source, current or from,
every other tile being as before; a read error takes every fetch of that source that has not ended off the list,
puts the plate in FAULT and raises PLATE_FAULT. The model reads one line a completion (log 11), and puts the plate
in FAULT whatever its state (log 28). For every state: a change of WLT or of an input's signal-present status
changes that pin's level, sampled later, and no other item of state. (R150, R151, R153, R130, R142, log 11 (DESIGN
CHOICE), log 28 (DEDUCED)) -/
def Obligations.MemoryReadsAndPinsComplete : Prop :=
  (∀ (s : State) (done rest : List Fetch) (f : Fetch), s.device = .running → s.fetches = done ++ f :: rest →
      (∀ g ∈ done, g.ended = true) → f.ended = false →
      (s.portRead = f.reads.head?.map fun a => (a, f.columns)) ∧
      (∀ ws : List Word, 2 ≤ f.reads.length →
        exec (.readCompletion ws) s = .next
          { s with
            fetches := done ++ { f with reads := f.reads.tail, line := f.line + 1,
                                        pixels := writeLine f.pixels f.line f.columns ws } :: rest }) ∧
      (∀ ws : List Word, f.reads.length ≤ 1 →
        let image := writeLine f.pixels f.line f.columns ws
        ∃ t, exec (.readCompletion ws) s = .next t ∧
          t.fetches = done ++ { f with reads := [], line := f.line + 1, pixels := image, ended := true } :: rest ∧
          t.tile f.tile =
            { s.tile f.tile with
              currentStore := if (s.tile f.tile).current = f.source then some ⟨image, true⟩
                else (s.tile f.tile).currentStore,
              fromStore := if (s.tile f.tile).fromSource = some f.source then some ⟨image, true⟩
                else (s.tile f.tile).fromStore } ∧
          (∀ k, k ≠ f.tile → t.tile k = s.tile k) ∧ t = { s with fetches := t.fetches, tiles := t.tiles }) ∧
      (∀ p, plateOf f.source = some p →
        exec .readError s = .next (({ s with
          fetches := s.fetches.filter fun g => g.ended || g.source != f.source }.setPlate p
            { s.plate p with state := .fault }).raise .plateFault))) ∧
  (∀ s : State, (∀ b, exec (.wltChange b) s = .next { s with wltPin := b }) ∧
      ∀ (i : Fin 4) (b : Bool),
        exec (.signalPresentChange i b) s = .next (s.setInput i.val { s.input i.val with pin := b }))

/-- O54. For every difference d and every e in 0..F with F at least 1 the rounded mix has the magnitude |d| times e plus
half of F, divided by F, and the sign of d; at e = 0 it is 0 and at e = F it is d; its magnitude never exceeds |d|;
a difference of 0 gives 0; a plus the mix of b - a lies between a and b, and is a level where both are; and for |d|
and e up to 65535 and F at least e the product and half of F stay below 2^32 where F is at most 65535. For every
level b and every a in 0..65535: the level product is a times b plus 32767 divided by 65535; a level of 65535
returns a exactly, a level of 0 returns 0, the result never exceeds a and lies in 0..65535. (R99, R100) -/
def Obligations.MixesAndProductsKeepTheirBounds : Prop :=
  ((∀ (d : Int) (e F : Nat), 1 ≤ F → e ≤ F →
      (roundedMix d e F).natAbs = (d.natAbs * e + F / 2) / F ∧ (0 ≤ d → 0 ≤ roundedMix d e F) ∧
        (d ≤ 0 → roundedMix d e F ≤ 0) ∧ roundedMix d 0 F = 0 ∧ roundedMix d F F = d ∧
        (roundedMix d e F).natAbs ≤ d.natAbs ∧ roundedMix 0 e F = 0) ∧
      (∀ a b e F : Nat, 1 ≤ F → e ≤ F →
        ((mixLevel a b e F : Nat) : Int) = (a : Int) + roundedMix ((b : Int) - a) e F ∧
          min a b ≤ mixLevel a b e F ∧ mixLevel a b e F ≤ max a b ∧
          (a ≤ 65535 → b ≤ 65535 → mixLevel a b e F ≤ 65535)) ∧
      ∀ (d : Int) (e F : Nat), d.natAbs ≤ 65535 → e ≤ 65535 → F ≤ 65535 → d.natAbs * e + F / 2 < 4294967296) ∧
  (∀ a b : Nat, a ≤ 65535 → b ≤ 65535 → levelProduct a b = (a * b + 32767) / 65535 ∧ levelProduct a 65535 = a ∧
      levelProduct a 0 = 0 ∧ levelProduct a b ≤ a ∧ levelProduct a b ≤ 65535)

/-- O55. For every level v in 0..65535 the curve stage at the POR knots returns v; in the reset state every curve 0..7
holds those knots. (R111) -/
def Obligations.TheIdentityCurveReturnsEveryLevel : Prop :=
  (∀ v : Nat, v ≤ 65535 → curveLevel identityCurve v = v) ∧ ∀ c < 8, State.reset.curve c = identityCurve

/-- O56. For every level v and point fields: PARK gives the force value, CAP the lesser, FLOOR the greater; a master
acts on INTENSITY points alone, as a level product; the work light is the greater of value and level on members
while WLT is sampled asserted. A curve takes v in 0..65535 in the segment k, the whole part of v / 4096 and 15 for
16, at f = v - 4096 k, which is at most the width w of 4096, or 4095 in segment 15: a rise from knot k to knot k + 1
gives knot k plus (rise x f + w / 2) / w, a fall knot k less (fall x f + w / 2) / w, whole parts, and the output is
between the two knots. The offset is clamped to 0..65535. The computed output of a point that is not SOURCE is its
merged level through force, master, work light, curve and offset, in this order; that of a SOURCE point its merged
level through the force alone; and the render gives the point what the freeze hold makes of its previous result, its
merge and its computed output. The shaped level of a point that is not SOURCE is in 0..65535. (R107, R108, R109,
R110, R112, R113, R116, 6 Resolution Arithmetic) -/
def Obligations.ShapingStaysWithinRange : Prop :=
  (∀ v f o : Nat, forceLevel none v = v ∧ forceLevel (some ⟨.park, f, o⟩) v = f ∧
    forceLevel (some ⟨.cap, f, o⟩) v = min v f ∧ forceLevel (some ⟨.floor, f, o⟩) v = max v f) ∧
  (∀ (s : State) (f : PointFields) (v : Nat),
    (∀ m, f.kind = .intensity → f.master = some m → s.masterLevel f v = levelProduct v (s.master m).level) ∧
    (f.kind ≠ .intensity ∨ f.master = none → s.masterLevel f v = v) ∧
    (s.wltSample = true → f.member = true → f.kind ≠ .source → s.workLightLevel f v = max v s.workLight) ∧
    (s.wltSample = false ∨ f.member = false → s.workLightLevel f v = v) ∧ (f.kind = .source → s.shapedLevel f v = v)) ∧
  (∀ (knots : List Nat) (v : Nat), v ≤ 65535 →
    let k := min (v / 4096) 15
    let w := if k = 15 then 4095 else 4096
    let f := v - 4096 * k
    let a := knots.getD k 0
    let b := knots.getD (k + 1) 0
    f ≤ w ∧ (a ≤ b → curveLevel knots v = a + ((b - a) * f + w / 2) / w) ∧
      (b ≤ a → curveLevel knots v = a - ((a - b) * f + w / 2) / w) ∧
      min a b ≤ curveLevel knots v ∧ curveLevel knots v ≤ max a b) ∧
  (∀ (o : Int) (v : Nat), offsetLevel o v ≤ 65535 ∧
    (0 ≤ (v : Int) + o → (v : Int) + o ≤ 65535 → ((offsetLevel o v : Nat) : Int) = v + o) ∧
    ((v : Int) + o < 0 → offsetLevel o v = 0) ∧ (65535 < (v : Int) + o → offsetLevel o v = 65535)) ∧
  (∀ (s : State) (p : Nat),
    let f := (s.point p).fields
    let v := forceLevel (s.force p) (s.merge p).level
    (f.kind ≠ .source → s.computedOutput p =
      offsetLevel f.offset (curveLevel (s.curve f.curve) (s.workLightLevel f (s.masterLevel f v)))) ∧
    (f.kind = .source → s.computedOutput p = v) ∧
    s.renderPoint p =
      holdLevel (s.result p) (s.point p).retake (s.frozenNow p) (s.merge p) (s.computedOutput p)) ∧
  ∀ (s : State) (f : PointFields) (v : Nat), f.kind ≠ .source → s.shapedLevel f v ≤ 65535

/-- O57. For every state and point p, the merge of p is that of its kind and home over exactly the FADING_IN and HELD
contributions whose selector covers p and the FADING_OUT ones, each of the 192 slots once and none PENDING or FREE: each
with its handle, priority and sequence, a live one with its effective level at p's position, a fading-out one with its
level word there, remaining and length. A selector over a group of stride at least 1 covers p at position i exactly
where i is below its count and p is base + (first + i) x stride + offset. The target at i is the level, or base + i x
step brought into 0..65535, or for a LIST the word behind the level words. The effective level is the target in HELD and
on a SOURCE point; in FADING_IN, with elapsed e and length F, the level word moved towards the target by (difference x e
+ F / 2) / F. For any home, live and fading members: with levels throughout and each remaining within a length of at
least 1, the merged level is in 0..65535. With no fading one, level and winner are those of the member that decides the
base, or home and none. That member is of the highest priority and, for INTENSITY, the greatest level there; where the
sequences follow one number by less than half their range, no member of its priority, for INTENSITY of its level too, is
later. Fading-out ones are taken from there each once, in ascending sequence where theirs do so. Each brings M: its
release level for SOURCE, else the mix from B towards it by remaining / length. B takes M with no live one or with a
priority above the band, and stays below the band; at the band INTENSITY takes the greater, and another kind takes M
where it is later than the member that decided the base. A step that changes B makes its contribution the winner,
another keeps the winner. The winner is none exactly where no live one covers the point and no fading-out one moves the
level from home. Sorting by insertion with the signed difference is log 25 (DEDUCED). (R33, R55, R56, R97, R101, R102,
R103, R104, R105, R106, R116, log 25 (DEDUCED)) -/
def Obligations.MergingKeepsLevelsAndNamesAWinner : Prop :=
  (∀ (s : State) (p : Nat), ∃ live fading : List Cover,
    s.merge p = mergeCovers (s.point p).fields.kind (s.point p).fields.home live fading ∧
    (live.map fun x => x.handle.slot).Pairwise (· < ·) ∧ (fading.map fun x => x.handle.slot).Pairwise (· < ·) ∧
    (∀ x, x ∈ live ↔ ∃ k c i, k < 192 ∧ (s.slot k).record = some c ∧ (c.phase = .fadingIn ∨ c.phase = .held) ∧
      s.positionOf c.selector p = some i ∧
      x = ⟨⟨k, (s.slot k).gen⟩, c.priority, c.sequence.getD 0, s.effectiveLevel c i p, 0, 1⟩) ∧
    ∀ x, x ∈ fading ↔ ∃ k c i, k < 192 ∧ (s.slot k).record = some c ∧ c.phase = .fadingOut ∧
      s.positionOf c.selector p = some i ∧
      x = ⟨⟨k, (s.slot k).gen⟩, c.priority, c.sequence.getD 0, s.word c.chain i, c.remaining, c.fadeOut⟩) ∧
  (∀ (s : State) (x : Selector) (p i : Nat), 1 ≤ (s.group x.group).stride →
    (s.positionOf x p = some i ↔
      i < x.count ∧ (s.group x.group).base + (x.first + i) * (s.group x.group).stride + x.offset = p)) ∧
  (∀ (s : State) (c : Contribution) (i p : Nat),
    (∀ v, c.form = .spec (.level v) → s.target c i = v) ∧
    (∀ (b : Nat) (d : Int), c.form = .spec (.fan b d) →
      ((b : Int) + i * d < 0 → s.target c i = 0) ∧ (65535 < (b : Int) + i * d → s.target c i = 65535) ∧
      (0 ≤ (b : Int) + i * d → (b : Int) + i * d ≤ 65535 → ((s.target c i : Nat) : Int) = b + i * d)) ∧
    (c.form = .list → s.target c i = s.word c.chain (c.selector.count + i)) ∧
    (c.phase = .held ∨ (s.point p).fields.kind = .source → s.effectiveLevel c i p = s.target c i) ∧
    (c.phase = .fadingIn → (s.point p).fields.kind ≠ .source → 1 ≤ c.fadeIn →
      let a := s.word c.chain i
      let b := s.target c i
      (a ≤ b → s.effectiveLevel c i p = a + ((b - a) * c.elapsed + c.fadeIn / 2) / c.fadeIn) ∧
        (b ≤ a → s.effectiveLevel c i p = a - ((a - b) * c.elapsed + c.fadeIn / 2) / c.fadeIn))) ∧
  (∀ (kind : Kind) (home : Nat) (live fading : List Cover),
    (home ≤ 65535 → (∀ c ∈ live, c.level ≤ 65535) →
      (∀ c ∈ fading, c.level ≤ 65535 ∧ 1 ≤ c.length ∧ c.remaining ≤ c.length) →
      (mergeCovers kind home live fading).level ≤ 65535) ∧
    (mergeCovers kind home [] []).level = home ∧ (mergeCovers kind home [] []).winner = none ∧
    (∀ c, topCover kind live = some c → c ∈ live ∧ (∀ d ∈ live, d.priority ≤ c.priority) ∧
      (kind = .intensity → ∀ d ∈ live, d.priority = c.priority → d.level ≤ c.level) ∧
      (∀ base : Word, (∀ d ∈ live, (d.sequence - base).toNat < 2147483648) →
        ∀ d ∈ live, d.priority = c.priority → (kind = .intensity → d.level = c.level) →
          isBefore c.sequence d.sequence = false) ∧
      (mergeCovers kind home live []).level = c.level ∧ (mergeCovers kind home live []).winner = some c.handle) ∧
    mergeCovers kind home live fading =
      (bySequence fading).foldl (fadeStep kind (topCover kind live)) (mergeCovers kind home live []) ∧
    (bySequence fading).Perm fading ∧
    (∀ base : Word, (∀ d ∈ fading, (d.sequence - base).toNat < 2147483648) →
      (bySequence fading).Pairwise fun a b => isBefore b.sequence a.sequence = false) ∧
    ((mergeCovers kind home live fading).winner = none ↔
      live = [] ∧ ∀ c ∈ fading, fadeValue kind home c = home)) ∧
  ∀ (kind : Kind) (b : Nat) (c : Cover),
    (kind = .source → fadeValue kind b c = c.level) ∧
    (kind ≠ .source → fadeValue kind b c = mixLevel b c.level c.remaining c.length) ∧
    fadedLevel kind none b c = fadeValue kind b c ∧
    (∀ t : Cover,
      (t.priority < c.priority → fadedLevel kind (some t) b c = fadeValue kind b c) ∧
      (c.priority < t.priority → fadedLevel kind (some t) b c = b) ∧
      (c.priority = t.priority → kind = .intensity → fadedLevel kind (some t) b c = max b (fadeValue kind b c)) ∧
      (c.priority = t.priority → kind ≠ .intensity → fadedLevel kind (some t) b c =
        if isBefore t.sequence c.sequence = true then fadeValue kind b c else b)) ∧
    ∀ (top : Option Cover) (x : Merge),
      (fadeStep kind top x c).level = fadedLevel kind top x.level c ∧
      (fadedLevel kind top x.level c = x.level → (fadeStep kind top x c).winner = x.winner) ∧
      (fadedLevel kind top x.level c ≠ x.level → (fadeStep kind top x c).winner = some c.handle)

/-- O58. For every previous result, merge and computed output v: not frozen now, the output is v and the held output
stays; frozen now and at the previous render, without a kind change, the output is the held output, which stays;
frozen now and not before, or with a kind change at this frame start, the held output becomes v and the output is v.
The merged level and winner are the merge's in every case, and, the stores being canonical, a point is frozen
exactly where a group with a freeze count above 0 spans it. (R113, R114) -/
def Obligations.FreezesHoldTheOutput : Prop :=
  (∀ (prev : Result) (m : Merge) (v : Nat) (retake : Bool),
    holdLevel prev retake false m v = ⟨m.level, v, m.winner, false, prev.held⟩ ∧
    (prev.frozen = true → holdLevel prev false true m v = ⟨m.level, prev.held, m.winner, true, prev.held⟩) ∧
    (prev.frozen = false ∨ retake = true → holdLevel prev retake true m v = ⟨m.level, v, m.winner, true, v⟩)) ∧
  ∀ (s : State) (p : Nat), Canonical s →
    (s.frozenNow p = true ↔ ∃ g, 0 < s.freezeCount g ∧ (s.group g).base ≤ p ∧
      p < (s.group g).base + (s.group g).count * (s.group g).stride)

/-- O59. For every tile and new source: with a dissolve length of 0, or frozen, the change is a cut with no from source
and an empty from store; with no dissolve running, or one at or past half its length, the present source becomes the
from source and its store the from store; with a dissolve running short of half its length, the from source and its
store stay. The new source is the current one in every case, its store empty and e 0. A dissolve counts once a frame
start, and its last count is left to DISSOLVE_END. That the last count is left to DISSOLVE_END is log 4. (R156, R157,
R158, log 4 (DESIGN CHOICE)) -/
def Obligations.SourceChangesOnATileFollowTheTable : Prop :=
  (∀ (x : Tile) (new : Nat) (frozen : Bool),
    (x.change new frozen).current = new ∧ (x.change new frozen).currentStore = none ∧ (x.change new frozen).elapsed = 0 ∧
    (x.fields.dissolve = 0 ∨ frozen = true →
      (x.change new frozen).fromSource = none ∧ (x.change new frozen).fromStore = none) ∧
    (x.fields.dissolve ≠ 0 → frozen = false → x.fromSource = none ∨ x.fields.dissolve ≤ 2 * x.elapsed →
      (x.change new frozen).fromSource = some x.current ∧ (x.change new frozen).fromStore = x.currentStore) ∧
    (x.fields.dissolve ≠ 0 → frozen = false → x.fromSource ≠ none → 2 * x.elapsed < x.fields.dissolve →
      (x.change new frozen).fromSource = x.fromSource ∧ (x.change new frozen).fromStore = x.fromStore)) ∧
  ∀ (s : State) (t : Nat), (s.tile t).fromSource ≠ none →
    ((s.tile t).elapsed + 1 < (s.tile t).fields.dissolve →
      s.countDissolve t = s.setTile t { s.tile t with elapsed := (s.tile t).elapsed + 1 }) ∧
    ((s.tile t).fields.dissolve ≤ (s.tile t).elapsed + 1 →
      s.countDissolve t = { s with work := { s.work with dissolvesDue := s.work.dissolvesDue ++ [t] } })

/-- O60. For every state and source: a tick leaves a source with reload 0 or LOST alone, lowers a counter above 1 by
one, and leaves a counter of 1 to the step SOURCE_LOST (log 4). A tick occurs at a frame start exactly where its
number, read as signed, is a multiple of the interval. The counts of a frame start: one on a FREE, PENDING, HELD or
paused slot changes nothing; one on a slot that entered its fade at this frame start takes its mark off and counts
nothing; else it raises elapsed of a FADING_IN slot by one short of its fade-in length, and lowers remaining of a
FADING_OUT slot above 1 by one, and where the fade so ends the slot joins the fades that are due. A master in FADING is
counted so towards its length, its level the mix of start and target, a plate that is PLAYING and was before the
application towards its hold count, and a link in WAKING towards its wake delay, each joining its kind's due ends at
the last count; a STEADY master, another plate and a link in another state are not counted. A frame start, the stores
being canonical, marks the plates that are PLAYING before its application. So a master set with target v and length F
above 0 is, after its own frame start's count and n further ones with n below F, FADING with elapsed n at the level its
start and target mix to at n of F; a FADING_IN record set at a frame start, not paused, is then FADING_IN with elapsed
n, n below its fade-in length; a record released with length L is then FADING_OUT with remaining L less n, n below L; a
paused record keeps its elapsed and remaining at every count; and n counts raise a hold counter and a wake count by n
short of their ends. The step of its own for an end is log 4, the mark of a plate stopped and played log 15, and the
elapsed of a released record log 30: the model's. (R45, R46, R67, R72, R73, R129, R149, R162, log 4 (DESIGN CHOICE), log
15 (DEDUCED), log 30 (DEDUCED)) -/
def Obligations.TicksAndFadesCountFrameStarts : Prop :=
  ((∀ (s : State) (n : Nat),
      ((s.source n).reload = 0 ∨ (s.source n).state = .lost → s.tickSource n = s) ∧
      ((s.source n).reload ≠ 0 → (s.source n).state = .live → 2 ≤ (s.source n).counter →
        s.tickSource n = s.setSource n { s.source n with counter := (s.source n).counter - 1 }) ∧
      ((s.source n).reload ≠ 0 → (s.source n).state = .live → (s.source n).counter = 1 →
        s.tickSource n = { s with work := { s.work with lossDue := s.work.lossDue ++ [n] } })) ∧
    ∀ (interval : Nat) (n : Word), tickAt interval n = true ↔ (interval : Int) ∣ n.toInt) ∧
  (∀ (s : State) (k : Nat),
    ((s.slot k).record = none → s.countFade k = s) ∧
    ∀ c, (s.slot k).record = some c →
      (c.fresh = true → s.countFade k = s.setRecord k { c with fresh := false }) ∧
      (c.fresh = false → c.phase = .pending ∨ c.phase = .held ∨ c.paused = true → s.countFade k = s) ∧
      (c.fresh = false → c.paused = false → c.phase = .fadingIn →
        (c.elapsed + 1 < c.fadeIn → s.countFade k = s.setRecord k { c with elapsed := c.elapsed + 1 }) ∧
        (c.fadeIn ≤ c.elapsed + 1 →
          s.countFade k = s.setWork { s.work with fadesDue := s.work.fadesDue ++ [k] })) ∧
      (c.fresh = false → c.paused = false → c.phase = .fadingOut →
        (2 ≤ c.remaining → s.countFade k = s.setRecord k { c with remaining := c.remaining - 1 }) ∧
        (c.remaining ≤ 1 → s.countFade k = s.setWork { s.work with fadesDue := s.work.fadesDue ++ [k] }))) ∧
  (∀ (s : State) (m : Nat),
    let x := s.master m
    (x.state = .steady → s.countMaster m = s) ∧
    (x.state = .fading → x.fresh = true → s.countMaster m = s.setMaster m { x with fresh := false }) ∧
    (x.state = .fading → x.fresh = false →
      (x.elapsed + 1 < x.length → s.countMaster m = s.setMaster m
        { x with elapsed := x.elapsed + 1, level := mixLevel x.start x.target (x.elapsed + 1) x.length }) ∧
      (x.length ≤ x.elapsed + 1 →
        s.countMaster m = s.setWork { s.work with mastersDue := s.work.mastersDue ++ [m] }))) ∧
  (∀ (s : State) (p : Nat),
    let x := s.plate p
    (x.state ≠ .playing ∨ x.wasPlaying = false → s.countPlate p = s) ∧
    (x.state = .playing → x.wasPlaying = true →
      (x.held + 1 < x.hold → s.countPlate p = s.setPlate p { x with held := x.held + 1 }) ∧
      (x.hold ≤ x.held + 1 → s.countPlate p = s.setWork { s.work with platesDue := s.work.platesDue ++ [p] }) ∧
      ∀ n, x.held + n < x.hold →
        (s.each State.countPlate (List.replicate n p)).plate p = { x with held := x.held + n }) ∧
    (Canonical s → ∀ t, ((s.frameStart t).plate p).wasPlaying = ((s.settle.plate p).state == .playing))) ∧
  (∀ (s : State) (l : Nat),
    let x := s.link l
    (x.state ≠ .waking → s.countWake l = s) ∧
    (x.state = .waking →
      (x.wakeCount + 1 < x.wakeDelay → s.countWake l = s.setLink l { x with wakeCount := x.wakeCount + 1 }) ∧
      (x.wakeDelay ≤ x.wakeCount + 1 → s.countWake l = s.setWork { s.work with wakesDue := s.work.wakesDue ++ [l] }) ∧
      ∀ n, x.wakeCount + n < x.wakeDelay →
        (s.each State.countWake (List.replicate n l)).link l = { x with wakeCount := x.wakeCount + n })) ∧
  (∀ (s : State) (m v F n : Nat), n < F →
    ((applyMasterSet s m v F).each State.countMaster (List.replicate (n + 1) m)).master m =
      { state := .fading, level := mixLevel (s.master m).level v n F, start := (s.master m).level, target := v,
        length := F, elapsed := n, fresh := false }) ∧
  (∀ (s : State) (k n : Nat) (c : Contribution), (s.slot k).record = some c →
    (c.phase = .fadingIn → c.fresh = true → c.paused = false → c.elapsed = 0 → n < c.fadeIn →
      ((s.each State.countFade (List.replicate (n + 1) k)).slot k).record =
        some { c with elapsed := n, fresh := false }) ∧
    (∀ L, n < L →
      (((s.release k L).each State.countFade (List.replicate (n + 1) k)).slot k).record =
        some { c with
          name := 0, phase := .fadingOut, fadeOut := L, elapsed := 0, remaining := L - n, paused := false,
          fresh := false }) ∧
    (c.paused = true → c.fresh = false →
      ((s.each State.countFade (List.replicate n k)).slot k).record = some c))
end

