-- ==== Sys2Proof/Laws/Advance.lean ====
section
/-! SUPPORT. What going on with a frame start's work may change: the one frame of `State.advance`, which a statement
about a row that sets frame work free cites instead of unfolding the counts and the render's beginning; the counting of each item once; and the two
parts of a frame start before it, the supervision tick and the first look at the cue lists. -/

namespace Sys2Proof.Machine

/-- `t` is `s` but for what counting and the beginning of a render pass change; of the work marks, the outstanding losses
and the cue evaluation stand. -/
structure Advanced (s t : State) : Prop where
  frame : t = { s with
        slots := t.slots
        masters := t.masters
        plates := t.plates
        tiles := t.tiles
        links := t.links
        inputs := t.inputs
        fetches := t.fetches
        wltSample := t.wltSample
        work := t.work }
  losses : t.work.lossDue = s.work.lossDue
  evaluation : t.work.evaluation = s.work.evaluation

theorem Advanced.refl (s) : Advanced s s := ⟨rfl, rfl, rfl⟩

theorem Advanced.trans {s t u} (h : Advanced s t) (g : Advanced t u) : Advanced s u := ⟨by
  rw [g.frame]; rw [h.frame], g.losses.trans h.losses, g.evaluation.trans h.evaluation⟩

theorem Advanced.each {f : State → Nat → State} (h : ∀ s k, Advanced s (f s k)) (s l) :
    Advanced s (s.each f l) := by
  induction l generalizing s with
  | nil => exact .refl s
  | cons k ks ih => exact (h s k).trans (ih _)

theorem Advanced.foldl {α : Type} {f : State → α → State} (h : ∀ s k, Advanced s (f s k)) (s) (l : List α) :
    Advanced s (l.foldl f s) := by
  induction l generalizing s with
  | nil => exact .refl s
  | cons k ks ih => exact (h s k).trans (ih _)

theorem Advanced.ite {c : Prop} [Decidable c] {s t u} (h : Advanced s t) (g : Advanced s u) :
    Advanced s (if c then t else u) := by
  split <;> assumption

theorem Advanced.countFade (s k) : Advanced s (s.countFade k) := by
  unfold State.countFade
  split
  · exact .refl s
  · repeat' (first | exact ⟨rfl, rfl, rfl⟩ | refine Advanced.ite ?_ ?_)

theorem Advanced.beginCounting (s) : Advanced s s.beginCounting := by
  unfold State.beginCounting
  refine Advanced.trans ?_ (Advanced.each (fun s k => ?_) _ _)
  refine Advanced.trans ?_ (Advanced.each (fun s k => ?_) _ _)
  refine Advanced.trans ?_ (Advanced.each (fun s k => ?_) _ _)
  refine Advanced.trans ?_ (Advanced.each (fun s k => ?_) _ _)
  refine Advanced.trans ?_ (Advanced.each Advanced.countFade _ _)
  exact ⟨rfl, rfl, rfl⟩
  · unfold State.countMaster; repeat' (first | exact ⟨rfl, rfl, rfl⟩ | refine Advanced.ite ?_ ?_)
  · unfold State.countPlate; repeat' (first | exact ⟨rfl, rfl, rfl⟩ | refine Advanced.ite ?_ ?_)
  · unfold State.countDissolve; repeat' (first | exact ⟨rfl, rfl, rfl⟩ | refine Advanced.ite ?_ ?_)
  · unfold State.countWake; repeat' (first | exact ⟨rfl, rfl, rfl⟩ | refine Advanced.ite ?_ ?_)

theorem Advanced.formFetchList (s) : Advanced s s.formFetchList := by
  unfold State.formFetchList
  refine Advanced.trans (t := { s with
    fetches := [], plates := s.plates.mapListed Plate.por fun _ x => { x with cleared := false } })
    ⟨rfl, rfl, rfl⟩ ?_
  unfold State.addFetches
  refine Advanced.foldl (fun s k => Advanced.foldl (fun s k => ?_) _ _) _ _
  unfold State.addFetch
  exact Advanced.ite ⟨rfl, rfl, rfl⟩ ⟨rfl, rfl, rfl⟩

/-- The last part of the render's beginning. -/
theorem Advanced.rendering (s : State) :
    Advanced s { s with wltSample := s.wltPin, work := { s.work with phase := .rendering } } := ⟨rfl, rfl, rfl⟩

theorem Advanced.sampleInput (s i) : Advanced s (s.sampleInput i) := ⟨rfl, rfl, rfl⟩

theorem Advanced.beginRender (s) : Advanced s s.beginRender :=
  ((Advanced.each Advanced.sampleInput s (List.range 4)).trans (Advanced.formFetchList _)).trans (Advanced.rendering _)

theorem Advanced.advance (s) : Advanced s s.advance :=
  Advanced.trans (Advanced.ite (Advanced.beginCounting s) (.refl s) : Advanced s s.tryCount)
    (Advanced.ite (Advanced.beginRender _) (.refl _))

/-! ### Counting each item once (R96) -/

/-- A fold of counts of which each reads and changes its own item alone, and joins its number to a list of due ends where
the item says so: every item of the list is counted once, the others stay, and the ends join in the list's order. -/
theorem State.each_counts {α : Type} {f : State → Nat → State} (item : State → Nat → α) (due : State → List Nat)
    (count : Nat → α → α) (ends : Nat → α → Bool)
    (hi : ∀ s k j, item (f s k) j = if j = k then count k (item s k) else item s j)
    (hd : ∀ s k, due (f s k) = due s ++ if ends k (item s k) then [k] else []) (s : State) (l : List Nat)
    (hl : l.Nodup) :
    (∀ j, item (s.each f l) j = if j ∈ l then count j (item s j) else item s j) ∧
      due (s.each f l) = due s ++ l.filter fun k => ends k (item s k) := by
  induction l generalizing s with
  | nil => simp [State.each]
  | cons k ks ih =>
    obtain ⟨hk, hks⟩ := List.nodup_cons.1 hl
    obtain ⟨items, dues⟩ := ih (f s k) hks
    rw [State.each]
    refine ⟨fun j => ?_, ?_⟩
    · rw [items j, hi]
      by_cases h : j = k
      · subst h
        simp [hk]
      · simp [h]
    · have same : ks.filter (fun j => ends j (item (f s k) j)) = ks.filter fun j => ends j (item s j) :=
        List.filter_congr fun j hj => by rw [hi, if_neg (by rintro rfl; exact hk hj)]
      rw [dues, hd, List.append_assoc, List.filter_cons, same]
      split <;> simp

/-! ### The supervision tick and the first look at the cue lists -/

/-- `t` is `s` but for what a supervision tick changes; of the work marks, the cue evaluation stands. -/
structure Ticked (s t : State) : Prop where
  frame : t = { s with sources := t.sources, work := t.work }
  evaluation : t.work.evaluation = s.work.evaluation

theorem Ticked.refl (s) : Ticked s s := ⟨rfl, rfl⟩

theorem Ticked.trans {s t u} (h : Ticked s t) (g : Ticked t u) : Ticked s u :=
  ⟨by rw [g.frame]; rw [h.frame], g.evaluation.trans h.evaluation⟩

theorem Ticked.tickSource (s n) : Ticked s (s.tickSource n) := by
  unfold State.tickSource
  simp only
  split
  · split <;> exact ⟨rfl, rfl⟩
  · exact .refl s

theorem Ticked.each (s : State) (l : List Nat) : Ticked s (s.each State.tickSource l) := by
  induction l generalizing s with
  | nil => exact .refl s
  | cons k ks ih => exact (Ticked.tickSource s k).trans (ih _)

theorem Ticked.superviseAt (s m) : Ticked s (s.superviseAt m) := by
  unfold State.superviseAt
  split
  · exact .each _ _
  · exact .refl s

/-- The evaluation of a frame start stands at the first list, A then B, whose head is due. -/
theorem State.skipIdle_start (s : State) (h : s.work.evaluation = some ⟨0, 0⟩) :
    s.skipIdle =
      s.setEvaluation (if s.headDue 0 then some ⟨0, 0⟩ else if s.headDue 1 then some ⟨1, 0⟩ else none) := by
  unfold State.skipIdle
  rw [h]
  simp only [Evaluation.after, if_true]
  split
  · rw [← h]; rfl
  · split <;> rfl

end Sys2Proof.Machine
end

