-- ==== Sys2Proof/Laws/Bytes.lean ====
section
/-! SUPPORT. Reading back what the encoder writes (11.8, R188), field by field: numbers, selectors, addresses, bindings,
levels, triggers, positions, windows, descriptors and actions. A whole body is these in its command's order. -/

namespace Sys2Proof

/-- A two-byte number reads back from its bytes. -/
theorem word16_be16 (x : Half) : word16 (x.extractLsb' 8 8) (x.extractLsb' 0 8) = x := by
  apply BitVec.eq_of_getLsbD_eq
  intro i hi
  simp only [word16, BitVec.getLsbD_append, BitVec.getLsbD_extractLsb']
  split <;> rename_i h
  · simp [h]
  · have : i - 8 < 8 := by omega
    simp [this]; congr 1; omega

/-- A four-byte number reads back from its bytes. -/
theorem word32_be32 (x : Word) :
    word32 (x.extractLsb' 24 8) (x.extractLsb' 16 8) (x.extractLsb' 8 8) (x.extractLsb' 0 8) = x := by
  apply BitVec.eq_of_getLsbD_eq
  intro i hi
  simp only [word32, BitVec.getLsbD_append, BitVec.getLsbD_extractLsb']
  split <;> rename_i h
  · simp [h]
  · split <;> rename_i h2
    · simp [h2]; congr 1; omega
    · split <;> rename_i h3
      · simp [h3]; congr 1; omega
      · have : i - 8 - 8 - 8 < 8 := by omega
        simp [this]; congr 1; omega

/-- A number below 256 reads back from its low byte. -/
theorem setWidth_lowByte (c : Half) (h : c.toNat < 256) : (BitVec.extractLsb' 0 8 c).setWidth 16 = c := by
  apply BitVec.eq_of_toNat_eq
  simp; omega

/-- A list of two-byte numbers reads back from its bytes. -/
theorem readHalves_encode (ks : List Half) : readHalves (ks.flatMap be16) = some ks := by
  induction ks with
  | nil => rfl
  | cons k ks ih => simp [be16, readHalves, word16_be16] at *; exact ih

/-- A selector reads back from its bytes. -/
theorem readSelector_append (x : SelectorField) (bs) : readSelector (x.encode ++ bs) = some (x, bs) := by
  simp [SelectorField.encode, be16, readSelector, word16_be16]

/-- A selector to the end of a body reads back from its bytes. -/
theorem readSelector_encode (x : SelectorField) : readSelector (x.encode) = some (x, []) := by
  simp [SelectorField.encode, be16, readSelector, word16_be16]

/-- A list of descriptors reads back from its bytes. -/
theorem readDescriptors_encode (ds : List DescriptorField) : readDescriptors (ds.flatMap DescriptorField.encode) = some ds := by
  induction ds with
  | nil => rfl
  | cons k ks ih => simp [DescriptorField.encode, be16, be32, readDescriptors, word16_be16, word32_be32] at *; exact ih

/-- An address reads back from its bytes. -/
theorem readAddress_encode (a : AddressField) (h : a.wf = true) : readAddress a.encode = some a := by
  cases a with
  | handle s g => simp [AddressField.encode, readAddress]
  | name n => simp [AddressField.encode, readAddress, be16, word16_be16]
  | unknown c =>
    simp [AddressField.wf] at h
    simp [AddressField.encode, readAddress]
    constructor <;> (intro e; subst e; simp at h)

/-- A level specification reads back from its bytes. -/
theorem readLevel_append (a : LevelField) (bs) (h : a.wf = true) : readLevel (a.encode ++ bs) = some (a, bs) := by
  cases a with
  | level s => simp [LevelField.encode, readLevel, be16, word16_be16]
  | fan n m => simp [LevelField.encode, readLevel, be16, word16_be16]
  | unknown c =>
    simp [LevelField.wf] at h
    simp [LevelField.encode, readLevel]
    rw [if_neg, if_neg] <;> (intro e; subst e; simp at h)

/-- One action reads back from its bytes. -/
theorem readAction_append (a : ActionField) (bs) (h : a.wf = true) (hu : (∃ c, a = .unknown c) → bs = []) :
    readAction (a.encode ++ bs) = some (a, bs) := by
  cases a with
  | unknown c =>
    have := hu ⟨c, rfl⟩; subst this
    simp [ActionField.wf] at h
    simp only [ActionField.encode, List.append_nil, readAction]
    have : c.toNat ≠ 0 ∧ c.toNat ≠ 1 ∧ c.toNat ≠ 2 ∧ c.toNat ≠ 3 ∧ c.toNat ≠ 4 ∧ c.toNat ≠ 5 ∧ c.toNat ≠ 6 ∧ c.toNat ≠ 7 ∧
        c.toNat ≠ 8 ∧ c.toNat ≠ 9 ∧ c.toNat ≠ 10 ∧ c.toNat ≠ 11 := by omega
    generalize c.toNat = n at *
    split <;> simp_all <;> omega
  | take b =>
    simp only [ActionField.wf] at h
    simp [ActionField.encode, readAction, be16, readSelector_append, readLevel_append _ _ h, word16_be16,
      readTakeAction]
  | forceSet x m v =>
    simp only [ActionField.wf] at h
    simp [ActionField.encode, readAction, readSelector_append, readLevel_append _ _ h]
  | release n f => cases f <;> simp [ActionField.encode, readAction, be16, optional16, word16_be16]
  | _ => simp [ActionField.encode, readAction, be16, word16_be16, readSelector_append]

/-- The actions of a cue read back from their bytes. -/
theorem readActions_encode (as : List ActionField) (h : actionsWf as = true) :
    ∀ n, (as.flatMap ActionField.encode).length ≤ n → readActions n (as.flatMap ActionField.encode) = some as := by
  induction as with
  | nil => intro n _; simp [readActions]
  | cons a as ih =>
    intro n hn
    have ha : a.wf = true ∧ actionsWf as = true ∧ ((∃ c, a = .unknown c) → as = []) := by
      cases as with
      | nil => simp [actionsWf] at h; exact ⟨h, rfl, fun _ => rfl⟩
      | cons b rest => cases a <;> simp [actionsWf] at h ⊢ <;> try exact h
    have hl : 1 ≤ a.encode.length := by cases a <;> simp [ActionField.encode] <;> omega
    rw [List.flatMap_cons]
    cases n with
    | zero => simp at hn; simp [hn.1] at hl
    | succ n =>
      have hne : a.encode ++ List.flatMap ActionField.encode as ≠ [] := by intro e; simp at e; simp [e.1] at hl
      obtain ⟨y, ys, hy⟩ := List.exists_cons_of_ne_nil hne
      have := readAction_append a (as.flatMap ActionField.encode) ha.1 (fun h => by simp [ha.2.2 h])
      simp only [List.flatMap_cons, List.length_append] at hn
      rw [hy] at this ⊢
      rw [readActions, this]
      simp only
      rw [ih ha.2.1 n (by omega)]
      rfl
      simp

/-- A trigger reads back from its bytes. -/
theorem readTrigger_append (a : TriggerField) (bs) (h : a.wf = true) : readTrigger (a.encode ++ bs) = some (a, bs) := by
  cases a with
  | unknown c =>
    simp [TriggerField.wf] at h
    simp [TriggerField.encode, readTrigger]
    rw [if_neg, if_neg, if_neg] <;> (intro e; subst e; simp at h)
  | _ => simp [TriggerField.encode, readTrigger, be16, be32, word16_be16, word32_be32]

/-- A position reads back from its bytes. -/
theorem readPosition_encode (a : PositionField) (h : a.wf = true) : readPosition (a.encode) = some a := by
  cases a with
  | unknown c =>
    simp [PositionField.wf] at h
    simp [PositionField.encode, readPosition]
    rw [if_neg, if_neg] <;> (intro e; subst e; simp at h)
  | _ => simp [PositionField.encode, readPosition, be16, word16_be16]

/-- A binding reads back from its bytes. -/
theorem readBinding_encode (a : BindingField) (h : a.wf = true) : readBinding (a.encode) = some a := by
  cases a with
  | unknown c =>
    simp [BindingField.wf] at h
    simp [BindingField.encode, readBinding]
    rw [if_neg, if_neg, if_neg] <;> (intro e; subst e; simp at h)
  | _ => simp [BindingField.encode, readBinding, be16, word16_be16]

/-- A window of two-byte fields reads back from its bytes. -/
theorem readWindow22_encode (w : Option Window) (h : w.all (Window.wf 16 16) = true) : readWindow22 (window22 w) = some w := by
  cases w with
  | none => rfl
  | some w =>
    simp [Window.wf] at h
    simp only [window22, be16, List.cons_append, List.nil_append, readWindow22, word16_be16]
    rw [if_neg]
    rintro ⟨a, b⟩; rw [a, b] at h; simp at h

/-- A window of a two-byte and a one-byte field reads back from its bytes. -/
theorem readWindow21_encode (w : Option Window) (h : w.all (Window.wf 16 8) = true) : readWindow21 (window21 w) = some w := by
  cases w with
  | none => rfl
  | some w =>
    simp [Window.wf] at h
    have hc : (BitVec.extractLsb' 0 8 w.count).setWidth 16 = w.count := setWidth_lowByte _ (by omega)
    simp only [window21, be16, List.cons_append, List.nil_append, readWindow21, word16_be16, hc]
    rw [if_neg]
    rintro ⟨a, b⟩; rw [a] at h; rw [b] at hc; rw [← hc] at h; simp at h

/-- A window of one-byte fields reads back from its bytes. -/
theorem readWindow11_encode (w : Option Window) (h : w.all (Window.wf 8 8) = true) : readWindow11 (window11 w) = some w := by
  cases w with
  | none => rfl
  | some w =>
    simp [Window.wf] at h
    have hc : (BitVec.extractLsb' 0 8 w.count).setWidth 16 = w.count := setWidth_lowByte _ (by omega)
    have hd : (BitVec.extractLsb' 0 8 w.first).setWidth 16 = w.first := setWidth_lowByte _ (by omega)
    simp only [window11, readWindow11, hc, hd]
    rw [if_neg]
    rintro ⟨a, b⟩; rw [a] at hd; rw [b] at hc; rw [← hc, ← hd] at h; simp at h

/-- A READ_CONTRIBUTION address reads back from its bytes. -/
theorem readReadAddress_append (a : ReadAddressField) (bs) (h : a.wf = true) (hu : a.closes = true → bs = []) :
    readReadAddress (a.encode ++ bs) = some (a, bs) := by
  cases a with
  | unknown c =>
    have := hu rfl; subst this
    simp [ReadAddressField.wf] at h
    simp [ReadAddressField.encode, readReadAddress]
    refine ⟨?_, ?_, ?_⟩ <;> (intro e; subst e; simp at h)
  | _ => simp [ReadAddressField.encode, readReadAddress, be16, word16_be16]

end Sys2Proof
end

