-- ==== Sys2Proof/Laws/State.lean ====
section
/-! SUPPORT. One lemma for each field and each record update of the state, true by definition, so that no proof unfolds
an update. -/

namespace Sys2Proof.Machine

variable (s : State)

/-! ### setPoint -/

@[simp] theorem State.setPoint_pending (p : Nat) (v : Point) : (s.setPoint p v).pending = s.pending := rfl
@[simp] theorem State.setPoint_now (p : Nat) (v : Point) : (s.setPoint p v).now = s.now := rfl
@[simp] theorem State.setPoint_device (p : Nat) (v : Point) : (s.setPoint p v).device = s.device := rfl
@[simp] theorem State.setPoint_softClear (p : Nat) (v : Point) : (s.setPoint p v).softClear = s.softClear := rfl
@[simp] theorem State.setPoint_work (p : Nat) (v : Point) : (s.setPoint p v).work = s.work := rfl
@[simp] theorem State.setPoint_timer (p : Nat) (v : Point) : (s.setPoint p v).timer = s.timer := rfl
@[simp] theorem State.setPoint_points (p : Nat) (v : Point) :
    (s.setPoint p v).points = s.points.set Point.por p v := rfl
@[simp] theorem State.setPoint_occupancy (p : Nat) (v : Point) : (s.setPoint p v).occupancy = s.occupancy := rfl
@[simp] theorem State.setPoint_groups (p : Nat) (v : Point) : (s.setPoint p v).groups = s.groups := rfl
@[simp] theorem State.setPoint_curves (p : Nat) (v : Point) : (s.setPoint p v).curves = s.curves := rfl
@[simp] theorem State.setPoint_results (p : Nat) (v : Point) : (s.setPoint p v).results = s.results := rfl
@[simp] theorem State.setPoint_renderFrame (p : Nat) (v : Point) : (s.setPoint p v).renderFrame = s.renderFrame := rfl
@[simp] theorem State.setPoint_sources (p : Nat) (v : Point) : (s.setPoint p v).sources = s.sources := rfl
@[simp] theorem State.setPoint_interval (p : Nat) (v : Point) : (s.setPoint p v).interval = s.interval := rfl
@[simp] theorem State.setPoint_slots (p : Nat) (v : Point) : (s.setPoint p v).slots = s.slots := rfl
@[simp] theorem State.setPoint_names (p : Nat) (v : Point) : (s.setPoint p v).names = s.names := rfl
@[simp] theorem State.setPoint_pool (p : Nat) (v : Point) : (s.setPoint p v).pool = s.pool := rfl
@[simp] theorem State.setPoint_poolFree (p : Nat) (v : Point) : (s.setPoint p v).poolFree = s.poolFree := rfl
@[simp] theorem State.setPoint_sequence (p : Nat) (v : Point) : (s.setPoint p v).sequence = s.sequence := rfl
@[simp] theorem State.setPoint_queue (p : Nat) (v : Point) : (s.setPoint p v).queue = s.queue := rfl
@[simp] theorem State.setPoint_arrival (p : Nat) (v : Point) : (s.setPoint p v).arrival = s.arrival := rfl
@[simp] theorem State.setPoint_lastFailure (p : Nat) (v : Point) : (s.setPoint p v).lastFailure = s.lastFailure := rfl
@[simp] theorem State.setPoint_forces (p : Nat) (v : Point) : (s.setPoint p v).forces = s.forces := rfl
@[simp] theorem State.setPoint_freezes (p : Nat) (v : Point) : (s.setPoint p v).freezes = s.freezes := rfl
@[simp] theorem State.setPoint_masters (p : Nat) (v : Point) : (s.setPoint p v).masters = s.masters := rfl
@[simp] theorem State.setPoint_workLight (p : Nat) (v : Point) : (s.setPoint p v).workLight = s.workLight := rfl
@[simp] theorem State.setPoint_wltPin (p : Nat) (v : Point) : (s.setPoint p v).wltPin = s.wltPin := rfl
@[simp] theorem State.setPoint_wltSample (p : Nat) (v : Point) : (s.setPoint p v).wltSample = s.wltSample := rfl
@[simp] theorem State.setPoint_wltRendered (p : Nat) (v : Point) : (s.setPoint p v).wltRendered = s.wltRendered := rfl
@[simp] theorem State.setPoint_lines (p : Nat) (v : Point) : (s.setPoint p v).lines = s.lines := rfl
@[simp] theorem State.setPoint_inputs (p : Nat) (v : Point) : (s.setPoint p v).inputs = s.inputs := rfl
@[simp] theorem State.setPoint_tiles (p : Nat) (v : Point) : (s.setPoint p v).tiles = s.tiles := rfl
@[simp] theorem State.setPoint_links (p : Nat) (v : Point) : (s.setPoint p v).links = s.links := rfl
@[simp] theorem State.setPoint_plates (p : Nat) (v : Point) : (s.setPoint p v).plates = s.plates := rfl
@[simp] theorem State.setPoint_descriptors (p : Nat) (v : Point) : (s.setPoint p v).descriptors = s.descriptors := rfl
@[simp] theorem State.setPoint_descriptorFree (p : Nat) (v : Point) :
    (s.setPoint p v).descriptorFree = s.descriptorFree := rfl
@[simp] theorem State.setPoint_fetches (p : Nat) (v : Point) : (s.setPoint p v).fetches = s.fetches := rfl
@[simp] theorem State.setPoint_draws (p : Nat) (v : Point) : (s.setPoint p v).draws = s.draws := rfl
@[simp] theorem State.setPoint_cues (p : Nat) (v : Point) : (s.setPoint p v).cues = s.cues := rfl
@[simp] theorem State.setPoint_actions (p : Nat) (v : Point) : (s.setPoint p v).actions = s.actions := rfl
@[simp] theorem State.setPoint_actionFree (p : Nat) (v : Point) : (s.setPoint p v).actionFree = s.actionFree := rfl
@[simp] theorem State.setPoint_lists (p : Nat) (v : Point) : (s.setPoint p v).lists = s.lists := rfl
@[simp] theorem State.setPoint_reply (p : Nat) (v : Point) : (s.setPoint p v).reply = s.reply := rfl
@[simp] theorem State.setPoint_outgoing (p : Nat) (v : Point) : (s.setPoint p v).outgoing = s.outgoing := rfl
@[simp] theorem State.setPoint_transaction (p : Nat) (v : Point) : (s.setPoint p v).transaction = s.transaction := rfl
@[simp] theorem State.setPoint_events (p : Nat) (v : Point) : (s.setPoint p v).events = s.events := rfl
@[simp] theorem State.setPoint_mask (p : Nat) (v : Point) : (s.setPoint p v).mask = s.mask := rfl

/-! ### setOccupant -/

@[simp] theorem State.setOccupant_pending (k : Nat) (v : Option Nat) : (s.setOccupant k v).pending = s.pending := rfl
@[simp] theorem State.setOccupant_now (k : Nat) (v : Option Nat) : (s.setOccupant k v).now = s.now := rfl
@[simp] theorem State.setOccupant_device (k : Nat) (v : Option Nat) : (s.setOccupant k v).device = s.device := rfl
@[simp] theorem State.setOccupant_softClear (k : Nat) (v : Option Nat) :
    (s.setOccupant k v).softClear = s.softClear := rfl
@[simp] theorem State.setOccupant_work (k : Nat) (v : Option Nat) : (s.setOccupant k v).work = s.work := rfl
@[simp] theorem State.setOccupant_timer (k : Nat) (v : Option Nat) : (s.setOccupant k v).timer = s.timer := rfl
@[simp] theorem State.setOccupant_points (k : Nat) (v : Option Nat) : (s.setOccupant k v).points = s.points := rfl
@[simp] theorem State.setOccupant_occupancy (k : Nat) (v : Option Nat) :
    (s.setOccupant k v).occupancy = s.occupancy.set Occupancy.por k v := rfl
@[simp] theorem State.setOccupant_groups (k : Nat) (v : Option Nat) : (s.setOccupant k v).groups = s.groups := rfl
@[simp] theorem State.setOccupant_curves (k : Nat) (v : Option Nat) : (s.setOccupant k v).curves = s.curves := rfl
@[simp] theorem State.setOccupant_results (k : Nat) (v : Option Nat) : (s.setOccupant k v).results = s.results := rfl
@[simp] theorem State.setOccupant_renderFrame (k : Nat) (v : Option Nat) :
    (s.setOccupant k v).renderFrame = s.renderFrame := rfl
@[simp] theorem State.setOccupant_sources (k : Nat) (v : Option Nat) : (s.setOccupant k v).sources = s.sources := rfl
@[simp] theorem State.setOccupant_interval (k : Nat) (v : Option Nat) : (s.setOccupant k v).interval = s.interval := rfl
@[simp] theorem State.setOccupant_slots (k : Nat) (v : Option Nat) : (s.setOccupant k v).slots = s.slots := rfl
@[simp] theorem State.setOccupant_names (k : Nat) (v : Option Nat) : (s.setOccupant k v).names = s.names := rfl
@[simp] theorem State.setOccupant_pool (k : Nat) (v : Option Nat) : (s.setOccupant k v).pool = s.pool := rfl
@[simp] theorem State.setOccupant_poolFree (k : Nat) (v : Option Nat) : (s.setOccupant k v).poolFree = s.poolFree := rfl
@[simp] theorem State.setOccupant_sequence (k : Nat) (v : Option Nat) : (s.setOccupant k v).sequence = s.sequence := rfl
@[simp] theorem State.setOccupant_queue (k : Nat) (v : Option Nat) : (s.setOccupant k v).queue = s.queue := rfl
@[simp] theorem State.setOccupant_arrival (k : Nat) (v : Option Nat) : (s.setOccupant k v).arrival = s.arrival := rfl
@[simp] theorem State.setOccupant_lastFailure (k : Nat) (v : Option Nat) :
    (s.setOccupant k v).lastFailure = s.lastFailure := rfl
@[simp] theorem State.setOccupant_forces (k : Nat) (v : Option Nat) : (s.setOccupant k v).forces = s.forces := rfl
@[simp] theorem State.setOccupant_freezes (k : Nat) (v : Option Nat) : (s.setOccupant k v).freezes = s.freezes := rfl
@[simp] theorem State.setOccupant_masters (k : Nat) (v : Option Nat) : (s.setOccupant k v).masters = s.masters := rfl
@[simp] theorem State.setOccupant_workLight (k : Nat) (v : Option Nat) :
    (s.setOccupant k v).workLight = s.workLight := rfl
@[simp] theorem State.setOccupant_wltPin (k : Nat) (v : Option Nat) : (s.setOccupant k v).wltPin = s.wltPin := rfl
@[simp] theorem State.setOccupant_wltSample (k : Nat) (v : Option Nat) :
    (s.setOccupant k v).wltSample = s.wltSample := rfl
@[simp] theorem State.setOccupant_wltRendered (k : Nat) (v : Option Nat) :
    (s.setOccupant k v).wltRendered = s.wltRendered := rfl
@[simp] theorem State.setOccupant_lines (k : Nat) (v : Option Nat) : (s.setOccupant k v).lines = s.lines := rfl
@[simp] theorem State.setOccupant_inputs (k : Nat) (v : Option Nat) : (s.setOccupant k v).inputs = s.inputs := rfl
@[simp] theorem State.setOccupant_tiles (k : Nat) (v : Option Nat) : (s.setOccupant k v).tiles = s.tiles := rfl
@[simp] theorem State.setOccupant_links (k : Nat) (v : Option Nat) : (s.setOccupant k v).links = s.links := rfl
@[simp] theorem State.setOccupant_plates (k : Nat) (v : Option Nat) : (s.setOccupant k v).plates = s.plates := rfl
@[simp] theorem State.setOccupant_descriptors (k : Nat) (v : Option Nat) :
    (s.setOccupant k v).descriptors = s.descriptors := rfl
@[simp] theorem State.setOccupant_descriptorFree (k : Nat) (v : Option Nat) :
    (s.setOccupant k v).descriptorFree = s.descriptorFree := rfl
@[simp] theorem State.setOccupant_fetches (k : Nat) (v : Option Nat) : (s.setOccupant k v).fetches = s.fetches := rfl
@[simp] theorem State.setOccupant_draws (k : Nat) (v : Option Nat) : (s.setOccupant k v).draws = s.draws := rfl
@[simp] theorem State.setOccupant_cues (k : Nat) (v : Option Nat) : (s.setOccupant k v).cues = s.cues := rfl
@[simp] theorem State.setOccupant_actions (k : Nat) (v : Option Nat) : (s.setOccupant k v).actions = s.actions := rfl
@[simp] theorem State.setOccupant_actionFree (k : Nat) (v : Option Nat) :
    (s.setOccupant k v).actionFree = s.actionFree := rfl
@[simp] theorem State.setOccupant_lists (k : Nat) (v : Option Nat) : (s.setOccupant k v).lists = s.lists := rfl
@[simp] theorem State.setOccupant_reply (k : Nat) (v : Option Nat) : (s.setOccupant k v).reply = s.reply := rfl
@[simp] theorem State.setOccupant_outgoing (k : Nat) (v : Option Nat) : (s.setOccupant k v).outgoing = s.outgoing := rfl
@[simp] theorem State.setOccupant_transaction (k : Nat) (v : Option Nat) :
    (s.setOccupant k v).transaction = s.transaction := rfl
@[simp] theorem State.setOccupant_events (k : Nat) (v : Option Nat) : (s.setOccupant k v).events = s.events := rfl
@[simp] theorem State.setOccupant_mask (k : Nat) (v : Option Nat) : (s.setOccupant k v).mask = s.mask := rfl

/-! ### setGroup -/

@[simp] theorem State.setGroup_pending (g : Nat) (v : Group) : (s.setGroup g v).pending = s.pending := rfl
@[simp] theorem State.setGroup_now (g : Nat) (v : Group) : (s.setGroup g v).now = s.now := rfl
@[simp] theorem State.setGroup_device (g : Nat) (v : Group) : (s.setGroup g v).device = s.device := rfl
@[simp] theorem State.setGroup_softClear (g : Nat) (v : Group) : (s.setGroup g v).softClear = s.softClear := rfl
@[simp] theorem State.setGroup_work (g : Nat) (v : Group) : (s.setGroup g v).work = s.work := rfl
@[simp] theorem State.setGroup_timer (g : Nat) (v : Group) : (s.setGroup g v).timer = s.timer := rfl
@[simp] theorem State.setGroup_points (g : Nat) (v : Group) : (s.setGroup g v).points = s.points := rfl
@[simp] theorem State.setGroup_occupancy (g : Nat) (v : Group) : (s.setGroup g v).occupancy = s.occupancy := rfl
@[simp] theorem State.setGroup_groups (g : Nat) (v : Group) :
    (s.setGroup g v).groups = s.groups.set Group.por g v := rfl
@[simp] theorem State.setGroup_curves (g : Nat) (v : Group) : (s.setGroup g v).curves = s.curves := rfl
@[simp] theorem State.setGroup_results (g : Nat) (v : Group) : (s.setGroup g v).results = s.results := rfl
@[simp] theorem State.setGroup_renderFrame (g : Nat) (v : Group) : (s.setGroup g v).renderFrame = s.renderFrame := rfl
@[simp] theorem State.setGroup_sources (g : Nat) (v : Group) : (s.setGroup g v).sources = s.sources := rfl
@[simp] theorem State.setGroup_interval (g : Nat) (v : Group) : (s.setGroup g v).interval = s.interval := rfl
@[simp] theorem State.setGroup_slots (g : Nat) (v : Group) : (s.setGroup g v).slots = s.slots := rfl
@[simp] theorem State.setGroup_names (g : Nat) (v : Group) : (s.setGroup g v).names = s.names := rfl
@[simp] theorem State.setGroup_pool (g : Nat) (v : Group) : (s.setGroup g v).pool = s.pool := rfl
@[simp] theorem State.setGroup_poolFree (g : Nat) (v : Group) : (s.setGroup g v).poolFree = s.poolFree := rfl
@[simp] theorem State.setGroup_sequence (g : Nat) (v : Group) : (s.setGroup g v).sequence = s.sequence := rfl
@[simp] theorem State.setGroup_queue (g : Nat) (v : Group) : (s.setGroup g v).queue = s.queue := rfl
@[simp] theorem State.setGroup_arrival (g : Nat) (v : Group) : (s.setGroup g v).arrival = s.arrival := rfl
@[simp] theorem State.setGroup_lastFailure (g : Nat) (v : Group) : (s.setGroup g v).lastFailure = s.lastFailure := rfl
@[simp] theorem State.setGroup_forces (g : Nat) (v : Group) : (s.setGroup g v).forces = s.forces := rfl
@[simp] theorem State.setGroup_freezes (g : Nat) (v : Group) : (s.setGroup g v).freezes = s.freezes := rfl
@[simp] theorem State.setGroup_masters (g : Nat) (v : Group) : (s.setGroup g v).masters = s.masters := rfl
@[simp] theorem State.setGroup_workLight (g : Nat) (v : Group) : (s.setGroup g v).workLight = s.workLight := rfl
@[simp] theorem State.setGroup_wltPin (g : Nat) (v : Group) : (s.setGroup g v).wltPin = s.wltPin := rfl
@[simp] theorem State.setGroup_wltSample (g : Nat) (v : Group) : (s.setGroup g v).wltSample = s.wltSample := rfl
@[simp] theorem State.setGroup_wltRendered (g : Nat) (v : Group) : (s.setGroup g v).wltRendered = s.wltRendered := rfl
@[simp] theorem State.setGroup_lines (g : Nat) (v : Group) : (s.setGroup g v).lines = s.lines := rfl
@[simp] theorem State.setGroup_inputs (g : Nat) (v : Group) : (s.setGroup g v).inputs = s.inputs := rfl
@[simp] theorem State.setGroup_tiles (g : Nat) (v : Group) : (s.setGroup g v).tiles = s.tiles := rfl
@[simp] theorem State.setGroup_links (g : Nat) (v : Group) : (s.setGroup g v).links = s.links := rfl
@[simp] theorem State.setGroup_plates (g : Nat) (v : Group) : (s.setGroup g v).plates = s.plates := rfl
@[simp] theorem State.setGroup_descriptors (g : Nat) (v : Group) : (s.setGroup g v).descriptors = s.descriptors := rfl
@[simp] theorem State.setGroup_descriptorFree (g : Nat) (v : Group) :
    (s.setGroup g v).descriptorFree = s.descriptorFree := rfl
@[simp] theorem State.setGroup_fetches (g : Nat) (v : Group) : (s.setGroup g v).fetches = s.fetches := rfl
@[simp] theorem State.setGroup_draws (g : Nat) (v : Group) : (s.setGroup g v).draws = s.draws := rfl
@[simp] theorem State.setGroup_cues (g : Nat) (v : Group) : (s.setGroup g v).cues = s.cues := rfl
@[simp] theorem State.setGroup_actions (g : Nat) (v : Group) : (s.setGroup g v).actions = s.actions := rfl
@[simp] theorem State.setGroup_actionFree (g : Nat) (v : Group) : (s.setGroup g v).actionFree = s.actionFree := rfl
@[simp] theorem State.setGroup_lists (g : Nat) (v : Group) : (s.setGroup g v).lists = s.lists := rfl
@[simp] theorem State.setGroup_reply (g : Nat) (v : Group) : (s.setGroup g v).reply = s.reply := rfl
@[simp] theorem State.setGroup_outgoing (g : Nat) (v : Group) : (s.setGroup g v).outgoing = s.outgoing := rfl
@[simp] theorem State.setGroup_transaction (g : Nat) (v : Group) : (s.setGroup g v).transaction = s.transaction := rfl
@[simp] theorem State.setGroup_events (g : Nat) (v : Group) : (s.setGroup g v).events = s.events := rfl
@[simp] theorem State.setGroup_mask (g : Nat) (v : Group) : (s.setGroup g v).mask = s.mask := rfl

/-! ### setCurve -/

@[simp] theorem State.setCurve_pending (c : Nat) (v : List Nat) : (s.setCurve c v).pending = s.pending := rfl
@[simp] theorem State.setCurve_now (c : Nat) (v : List Nat) : (s.setCurve c v).now = s.now := rfl
@[simp] theorem State.setCurve_device (c : Nat) (v : List Nat) : (s.setCurve c v).device = s.device := rfl
@[simp] theorem State.setCurve_softClear (c : Nat) (v : List Nat) : (s.setCurve c v).softClear = s.softClear := rfl
@[simp] theorem State.setCurve_work (c : Nat) (v : List Nat) : (s.setCurve c v).work = s.work := rfl
@[simp] theorem State.setCurve_timer (c : Nat) (v : List Nat) : (s.setCurve c v).timer = s.timer := rfl
@[simp] theorem State.setCurve_points (c : Nat) (v : List Nat) : (s.setCurve c v).points = s.points := rfl
@[simp] theorem State.setCurve_occupancy (c : Nat) (v : List Nat) : (s.setCurve c v).occupancy = s.occupancy := rfl
@[simp] theorem State.setCurve_groups (c : Nat) (v : List Nat) : (s.setCurve c v).groups = s.groups := rfl
@[simp] theorem State.setCurve_curves (c : Nat) (v : List Nat) :
    (s.setCurve c v).curves = s.curves.set Curve.por c v := rfl
@[simp] theorem State.setCurve_results (c : Nat) (v : List Nat) : (s.setCurve c v).results = s.results := rfl
@[simp] theorem State.setCurve_renderFrame (c : Nat) (v : List Nat) :
    (s.setCurve c v).renderFrame = s.renderFrame := rfl
@[simp] theorem State.setCurve_sources (c : Nat) (v : List Nat) : (s.setCurve c v).sources = s.sources := rfl
@[simp] theorem State.setCurve_interval (c : Nat) (v : List Nat) : (s.setCurve c v).interval = s.interval := rfl
@[simp] theorem State.setCurve_slots (c : Nat) (v : List Nat) : (s.setCurve c v).slots = s.slots := rfl
@[simp] theorem State.setCurve_names (c : Nat) (v : List Nat) : (s.setCurve c v).names = s.names := rfl
@[simp] theorem State.setCurve_pool (c : Nat) (v : List Nat) : (s.setCurve c v).pool = s.pool := rfl
@[simp] theorem State.setCurve_poolFree (c : Nat) (v : List Nat) : (s.setCurve c v).poolFree = s.poolFree := rfl
@[simp] theorem State.setCurve_sequence (c : Nat) (v : List Nat) : (s.setCurve c v).sequence = s.sequence := rfl
@[simp] theorem State.setCurve_queue (c : Nat) (v : List Nat) : (s.setCurve c v).queue = s.queue := rfl
@[simp] theorem State.setCurve_arrival (c : Nat) (v : List Nat) : (s.setCurve c v).arrival = s.arrival := rfl
@[simp] theorem State.setCurve_lastFailure (c : Nat) (v : List Nat) :
    (s.setCurve c v).lastFailure = s.lastFailure := rfl
@[simp] theorem State.setCurve_forces (c : Nat) (v : List Nat) : (s.setCurve c v).forces = s.forces := rfl
@[simp] theorem State.setCurve_freezes (c : Nat) (v : List Nat) : (s.setCurve c v).freezes = s.freezes := rfl
@[simp] theorem State.setCurve_masters (c : Nat) (v : List Nat) : (s.setCurve c v).masters = s.masters := rfl
@[simp] theorem State.setCurve_workLight (c : Nat) (v : List Nat) : (s.setCurve c v).workLight = s.workLight := rfl
@[simp] theorem State.setCurve_wltPin (c : Nat) (v : List Nat) : (s.setCurve c v).wltPin = s.wltPin := rfl
@[simp] theorem State.setCurve_wltSample (c : Nat) (v : List Nat) : (s.setCurve c v).wltSample = s.wltSample := rfl
@[simp] theorem State.setCurve_wltRendered (c : Nat) (v : List Nat) :
    (s.setCurve c v).wltRendered = s.wltRendered := rfl
@[simp] theorem State.setCurve_lines (c : Nat) (v : List Nat) : (s.setCurve c v).lines = s.lines := rfl
@[simp] theorem State.setCurve_inputs (c : Nat) (v : List Nat) : (s.setCurve c v).inputs = s.inputs := rfl
@[simp] theorem State.setCurve_tiles (c : Nat) (v : List Nat) : (s.setCurve c v).tiles = s.tiles := rfl
@[simp] theorem State.setCurve_links (c : Nat) (v : List Nat) : (s.setCurve c v).links = s.links := rfl
@[simp] theorem State.setCurve_plates (c : Nat) (v : List Nat) : (s.setCurve c v).plates = s.plates := rfl
@[simp] theorem State.setCurve_descriptors (c : Nat) (v : List Nat) :
    (s.setCurve c v).descriptors = s.descriptors := rfl
@[simp] theorem State.setCurve_descriptorFree (c : Nat) (v : List Nat) :
    (s.setCurve c v).descriptorFree = s.descriptorFree := rfl
@[simp] theorem State.setCurve_fetches (c : Nat) (v : List Nat) : (s.setCurve c v).fetches = s.fetches := rfl
@[simp] theorem State.setCurve_draws (c : Nat) (v : List Nat) : (s.setCurve c v).draws = s.draws := rfl
@[simp] theorem State.setCurve_cues (c : Nat) (v : List Nat) : (s.setCurve c v).cues = s.cues := rfl
@[simp] theorem State.setCurve_actions (c : Nat) (v : List Nat) : (s.setCurve c v).actions = s.actions := rfl
@[simp] theorem State.setCurve_actionFree (c : Nat) (v : List Nat) : (s.setCurve c v).actionFree = s.actionFree := rfl
@[simp] theorem State.setCurve_lists (c : Nat) (v : List Nat) : (s.setCurve c v).lists = s.lists := rfl
@[simp] theorem State.setCurve_reply (c : Nat) (v : List Nat) : (s.setCurve c v).reply = s.reply := rfl
@[simp] theorem State.setCurve_outgoing (c : Nat) (v : List Nat) : (s.setCurve c v).outgoing = s.outgoing := rfl
@[simp] theorem State.setCurve_transaction (c : Nat) (v : List Nat) :
    (s.setCurve c v).transaction = s.transaction := rfl
@[simp] theorem State.setCurve_events (c : Nat) (v : List Nat) : (s.setCurve c v).events = s.events := rfl
@[simp] theorem State.setCurve_mask (c : Nat) (v : List Nat) : (s.setCurve c v).mask = s.mask := rfl

/-! ### setSource -/

@[simp] theorem State.setSource_pending (n : Nat) (v : Source) : (s.setSource n v).pending = s.pending := rfl
@[simp] theorem State.setSource_now (n : Nat) (v : Source) : (s.setSource n v).now = s.now := rfl
@[simp] theorem State.setSource_device (n : Nat) (v : Source) : (s.setSource n v).device = s.device := rfl
@[simp] theorem State.setSource_softClear (n : Nat) (v : Source) : (s.setSource n v).softClear = s.softClear := rfl
@[simp] theorem State.setSource_work (n : Nat) (v : Source) : (s.setSource n v).work = s.work := rfl
@[simp] theorem State.setSource_timer (n : Nat) (v : Source) : (s.setSource n v).timer = s.timer := rfl
@[simp] theorem State.setSource_points (n : Nat) (v : Source) : (s.setSource n v).points = s.points := rfl
@[simp] theorem State.setSource_occupancy (n : Nat) (v : Source) : (s.setSource n v).occupancy = s.occupancy := rfl
@[simp] theorem State.setSource_groups (n : Nat) (v : Source) : (s.setSource n v).groups = s.groups := rfl
@[simp] theorem State.setSource_curves (n : Nat) (v : Source) : (s.setSource n v).curves = s.curves := rfl
@[simp] theorem State.setSource_results (n : Nat) (v : Source) : (s.setSource n v).results = s.results := rfl
@[simp] theorem State.setSource_renderFrame (n : Nat) (v : Source) :
    (s.setSource n v).renderFrame = s.renderFrame := rfl
@[simp] theorem State.setSource_sources (n : Nat) (v : Source) :
    (s.setSource n v).sources = s.sources.set Source.por n v := rfl
@[simp] theorem State.setSource_interval (n : Nat) (v : Source) : (s.setSource n v).interval = s.interval := rfl
@[simp] theorem State.setSource_slots (n : Nat) (v : Source) : (s.setSource n v).slots = s.slots := rfl
@[simp] theorem State.setSource_names (n : Nat) (v : Source) : (s.setSource n v).names = s.names := rfl
@[simp] theorem State.setSource_pool (n : Nat) (v : Source) : (s.setSource n v).pool = s.pool := rfl
@[simp] theorem State.setSource_poolFree (n : Nat) (v : Source) : (s.setSource n v).poolFree = s.poolFree := rfl
@[simp] theorem State.setSource_sequence (n : Nat) (v : Source) : (s.setSource n v).sequence = s.sequence := rfl
@[simp] theorem State.setSource_queue (n : Nat) (v : Source) : (s.setSource n v).queue = s.queue := rfl
@[simp] theorem State.setSource_arrival (n : Nat) (v : Source) : (s.setSource n v).arrival = s.arrival := rfl
@[simp] theorem State.setSource_lastFailure (n : Nat) (v : Source) :
    (s.setSource n v).lastFailure = s.lastFailure := rfl
@[simp] theorem State.setSource_forces (n : Nat) (v : Source) : (s.setSource n v).forces = s.forces := rfl
@[simp] theorem State.setSource_freezes (n : Nat) (v : Source) : (s.setSource n v).freezes = s.freezes := rfl
@[simp] theorem State.setSource_masters (n : Nat) (v : Source) : (s.setSource n v).masters = s.masters := rfl
@[simp] theorem State.setSource_workLight (n : Nat) (v : Source) : (s.setSource n v).workLight = s.workLight := rfl
@[simp] theorem State.setSource_wltPin (n : Nat) (v : Source) : (s.setSource n v).wltPin = s.wltPin := rfl
@[simp] theorem State.setSource_wltSample (n : Nat) (v : Source) : (s.setSource n v).wltSample = s.wltSample := rfl
@[simp] theorem State.setSource_wltRendered (n : Nat) (v : Source) :
    (s.setSource n v).wltRendered = s.wltRendered := rfl
@[simp] theorem State.setSource_lines (n : Nat) (v : Source) : (s.setSource n v).lines = s.lines := rfl
@[simp] theorem State.setSource_inputs (n : Nat) (v : Source) : (s.setSource n v).inputs = s.inputs := rfl
@[simp] theorem State.setSource_tiles (n : Nat) (v : Source) : (s.setSource n v).tiles = s.tiles := rfl
@[simp] theorem State.setSource_links (n : Nat) (v : Source) : (s.setSource n v).links = s.links := rfl
@[simp] theorem State.setSource_plates (n : Nat) (v : Source) : (s.setSource n v).plates = s.plates := rfl
@[simp] theorem State.setSource_descriptors (n : Nat) (v : Source) :
    (s.setSource n v).descriptors = s.descriptors := rfl
@[simp] theorem State.setSource_descriptorFree (n : Nat) (v : Source) :
    (s.setSource n v).descriptorFree = s.descriptorFree := rfl
@[simp] theorem State.setSource_fetches (n : Nat) (v : Source) : (s.setSource n v).fetches = s.fetches := rfl
@[simp] theorem State.setSource_draws (n : Nat) (v : Source) : (s.setSource n v).draws = s.draws := rfl
@[simp] theorem State.setSource_cues (n : Nat) (v : Source) : (s.setSource n v).cues = s.cues := rfl
@[simp] theorem State.setSource_actions (n : Nat) (v : Source) : (s.setSource n v).actions = s.actions := rfl
@[simp] theorem State.setSource_actionFree (n : Nat) (v : Source) : (s.setSource n v).actionFree = s.actionFree := rfl
@[simp] theorem State.setSource_lists (n : Nat) (v : Source) : (s.setSource n v).lists = s.lists := rfl
@[simp] theorem State.setSource_reply (n : Nat) (v : Source) : (s.setSource n v).reply = s.reply := rfl
@[simp] theorem State.setSource_outgoing (n : Nat) (v : Source) : (s.setSource n v).outgoing = s.outgoing := rfl
@[simp] theorem State.setSource_transaction (n : Nat) (v : Source) :
    (s.setSource n v).transaction = s.transaction := rfl
@[simp] theorem State.setSource_events (n : Nat) (v : Source) : (s.setSource n v).events = s.events := rfl
@[simp] theorem State.setSource_mask (n : Nat) (v : Source) : (s.setSource n v).mask = s.mask := rfl

/-! ### setSlot -/

@[simp] theorem State.setSlot_pending (k : Nat) (v : Slot) : (s.setSlot k v).pending = s.pending := rfl
@[simp] theorem State.setSlot_now (k : Nat) (v : Slot) : (s.setSlot k v).now = s.now := rfl
@[simp] theorem State.setSlot_device (k : Nat) (v : Slot) : (s.setSlot k v).device = s.device := rfl
@[simp] theorem State.setSlot_softClear (k : Nat) (v : Slot) : (s.setSlot k v).softClear = s.softClear := rfl
@[simp] theorem State.setSlot_work (k : Nat) (v : Slot) : (s.setSlot k v).work = s.work := rfl
@[simp] theorem State.setSlot_timer (k : Nat) (v : Slot) : (s.setSlot k v).timer = s.timer := rfl
@[simp] theorem State.setSlot_points (k : Nat) (v : Slot) : (s.setSlot k v).points = s.points := rfl
@[simp] theorem State.setSlot_occupancy (k : Nat) (v : Slot) : (s.setSlot k v).occupancy = s.occupancy := rfl
@[simp] theorem State.setSlot_groups (k : Nat) (v : Slot) : (s.setSlot k v).groups = s.groups := rfl
@[simp] theorem State.setSlot_curves (k : Nat) (v : Slot) : (s.setSlot k v).curves = s.curves := rfl
@[simp] theorem State.setSlot_results (k : Nat) (v : Slot) : (s.setSlot k v).results = s.results := rfl
@[simp] theorem State.setSlot_renderFrame (k : Nat) (v : Slot) : (s.setSlot k v).renderFrame = s.renderFrame := rfl
@[simp] theorem State.setSlot_sources (k : Nat) (v : Slot) : (s.setSlot k v).sources = s.sources := rfl
@[simp] theorem State.setSlot_interval (k : Nat) (v : Slot) : (s.setSlot k v).interval = s.interval := rfl
@[simp] theorem State.setSlot_slots (k : Nat) (v : Slot) : (s.setSlot k v).slots = s.slots.set Slot.por k v := rfl
@[simp] theorem State.setSlot_names (k : Nat) (v : Slot) : (s.setSlot k v).names = s.names := rfl
@[simp] theorem State.setSlot_pool (k : Nat) (v : Slot) : (s.setSlot k v).pool = s.pool := rfl
@[simp] theorem State.setSlot_poolFree (k : Nat) (v : Slot) : (s.setSlot k v).poolFree = s.poolFree := rfl
@[simp] theorem State.setSlot_sequence (k : Nat) (v : Slot) : (s.setSlot k v).sequence = s.sequence := rfl
@[simp] theorem State.setSlot_queue (k : Nat) (v : Slot) : (s.setSlot k v).queue = s.queue := rfl
@[simp] theorem State.setSlot_arrival (k : Nat) (v : Slot) : (s.setSlot k v).arrival = s.arrival := rfl
@[simp] theorem State.setSlot_lastFailure (k : Nat) (v : Slot) : (s.setSlot k v).lastFailure = s.lastFailure := rfl
@[simp] theorem State.setSlot_forces (k : Nat) (v : Slot) : (s.setSlot k v).forces = s.forces := rfl
@[simp] theorem State.setSlot_freezes (k : Nat) (v : Slot) : (s.setSlot k v).freezes = s.freezes := rfl
@[simp] theorem State.setSlot_masters (k : Nat) (v : Slot) : (s.setSlot k v).masters = s.masters := rfl
@[simp] theorem State.setSlot_workLight (k : Nat) (v : Slot) : (s.setSlot k v).workLight = s.workLight := rfl
@[simp] theorem State.setSlot_wltPin (k : Nat) (v : Slot) : (s.setSlot k v).wltPin = s.wltPin := rfl
@[simp] theorem State.setSlot_wltSample (k : Nat) (v : Slot) : (s.setSlot k v).wltSample = s.wltSample := rfl
@[simp] theorem State.setSlot_wltRendered (k : Nat) (v : Slot) : (s.setSlot k v).wltRendered = s.wltRendered := rfl
@[simp] theorem State.setSlot_lines (k : Nat) (v : Slot) : (s.setSlot k v).lines = s.lines := rfl
@[simp] theorem State.setSlot_inputs (k : Nat) (v : Slot) : (s.setSlot k v).inputs = s.inputs := rfl
@[simp] theorem State.setSlot_tiles (k : Nat) (v : Slot) : (s.setSlot k v).tiles = s.tiles := rfl
@[simp] theorem State.setSlot_links (k : Nat) (v : Slot) : (s.setSlot k v).links = s.links := rfl
@[simp] theorem State.setSlot_plates (k : Nat) (v : Slot) : (s.setSlot k v).plates = s.plates := rfl
@[simp] theorem State.setSlot_descriptors (k : Nat) (v : Slot) : (s.setSlot k v).descriptors = s.descriptors := rfl
@[simp] theorem State.setSlot_descriptorFree (k : Nat) (v : Slot) :
    (s.setSlot k v).descriptorFree = s.descriptorFree := rfl
@[simp] theorem State.setSlot_fetches (k : Nat) (v : Slot) : (s.setSlot k v).fetches = s.fetches := rfl
@[simp] theorem State.setSlot_draws (k : Nat) (v : Slot) : (s.setSlot k v).draws = s.draws := rfl
@[simp] theorem State.setSlot_cues (k : Nat) (v : Slot) : (s.setSlot k v).cues = s.cues := rfl
@[simp] theorem State.setSlot_actions (k : Nat) (v : Slot) : (s.setSlot k v).actions = s.actions := rfl
@[simp] theorem State.setSlot_actionFree (k : Nat) (v : Slot) : (s.setSlot k v).actionFree = s.actionFree := rfl
@[simp] theorem State.setSlot_lists (k : Nat) (v : Slot) : (s.setSlot k v).lists = s.lists := rfl
@[simp] theorem State.setSlot_reply (k : Nat) (v : Slot) : (s.setSlot k v).reply = s.reply := rfl
@[simp] theorem State.setSlot_outgoing (k : Nat) (v : Slot) : (s.setSlot k v).outgoing = s.outgoing := rfl
@[simp] theorem State.setSlot_transaction (k : Nat) (v : Slot) : (s.setSlot k v).transaction = s.transaction := rfl
@[simp] theorem State.setSlot_events (k : Nat) (v : Slot) : (s.setSlot k v).events = s.events := rfl
@[simp] theorem State.setSlot_mask (k : Nat) (v : Slot) : (s.setSlot k v).mask = s.mask := rfl

/-! ### setForce -/

@[simp] theorem State.setForce_pending (p : Nat) (v : Option Force) : (s.setForce p v).pending = s.pending := rfl
@[simp] theorem State.setForce_now (p : Nat) (v : Option Force) : (s.setForce p v).now = s.now := rfl
@[simp] theorem State.setForce_device (p : Nat) (v : Option Force) : (s.setForce p v).device = s.device := rfl
@[simp] theorem State.setForce_softClear (p : Nat) (v : Option Force) : (s.setForce p v).softClear = s.softClear := rfl
@[simp] theorem State.setForce_work (p : Nat) (v : Option Force) : (s.setForce p v).work = s.work := rfl
@[simp] theorem State.setForce_timer (p : Nat) (v : Option Force) : (s.setForce p v).timer = s.timer := rfl
@[simp] theorem State.setForce_points (p : Nat) (v : Option Force) : (s.setForce p v).points = s.points := rfl
@[simp] theorem State.setForce_occupancy (p : Nat) (v : Option Force) : (s.setForce p v).occupancy = s.occupancy := rfl
@[simp] theorem State.setForce_groups (p : Nat) (v : Option Force) : (s.setForce p v).groups = s.groups := rfl
@[simp] theorem State.setForce_curves (p : Nat) (v : Option Force) : (s.setForce p v).curves = s.curves := rfl
@[simp] theorem State.setForce_results (p : Nat) (v : Option Force) : (s.setForce p v).results = s.results := rfl
@[simp] theorem State.setForce_renderFrame (p : Nat) (v : Option Force) :
    (s.setForce p v).renderFrame = s.renderFrame := rfl
@[simp] theorem State.setForce_sources (p : Nat) (v : Option Force) : (s.setForce p v).sources = s.sources := rfl
@[simp] theorem State.setForce_interval (p : Nat) (v : Option Force) : (s.setForce p v).interval = s.interval := rfl
@[simp] theorem State.setForce_slots (p : Nat) (v : Option Force) : (s.setForce p v).slots = s.slots := rfl
@[simp] theorem State.setForce_names (p : Nat) (v : Option Force) : (s.setForce p v).names = s.names := rfl
@[simp] theorem State.setForce_pool (p : Nat) (v : Option Force) : (s.setForce p v).pool = s.pool := rfl
@[simp] theorem State.setForce_poolFree (p : Nat) (v : Option Force) : (s.setForce p v).poolFree = s.poolFree := rfl
@[simp] theorem State.setForce_sequence (p : Nat) (v : Option Force) : (s.setForce p v).sequence = s.sequence := rfl
@[simp] theorem State.setForce_queue (p : Nat) (v : Option Force) : (s.setForce p v).queue = s.queue := rfl
@[simp] theorem State.setForce_arrival (p : Nat) (v : Option Force) : (s.setForce p v).arrival = s.arrival := rfl
@[simp] theorem State.setForce_lastFailure (p : Nat) (v : Option Force) :
    (s.setForce p v).lastFailure = s.lastFailure := rfl
@[simp] theorem State.setForce_forces (p : Nat) (v : Option Force) :
    (s.setForce p v).forces = s.forces.set Force.por p v := rfl
@[simp] theorem State.setForce_freezes (p : Nat) (v : Option Force) : (s.setForce p v).freezes = s.freezes := rfl
@[simp] theorem State.setForce_masters (p : Nat) (v : Option Force) : (s.setForce p v).masters = s.masters := rfl
@[simp] theorem State.setForce_workLight (p : Nat) (v : Option Force) : (s.setForce p v).workLight = s.workLight := rfl
@[simp] theorem State.setForce_wltPin (p : Nat) (v : Option Force) : (s.setForce p v).wltPin = s.wltPin := rfl
@[simp] theorem State.setForce_wltSample (p : Nat) (v : Option Force) : (s.setForce p v).wltSample = s.wltSample := rfl
@[simp] theorem State.setForce_wltRendered (p : Nat) (v : Option Force) :
    (s.setForce p v).wltRendered = s.wltRendered := rfl
@[simp] theorem State.setForce_lines (p : Nat) (v : Option Force) : (s.setForce p v).lines = s.lines := rfl
@[simp] theorem State.setForce_inputs (p : Nat) (v : Option Force) : (s.setForce p v).inputs = s.inputs := rfl
@[simp] theorem State.setForce_tiles (p : Nat) (v : Option Force) : (s.setForce p v).tiles = s.tiles := rfl
@[simp] theorem State.setForce_links (p : Nat) (v : Option Force) : (s.setForce p v).links = s.links := rfl
@[simp] theorem State.setForce_plates (p : Nat) (v : Option Force) : (s.setForce p v).plates = s.plates := rfl
@[simp] theorem State.setForce_descriptors (p : Nat) (v : Option Force) :
    (s.setForce p v).descriptors = s.descriptors := rfl
@[simp] theorem State.setForce_descriptorFree (p : Nat) (v : Option Force) :
    (s.setForce p v).descriptorFree = s.descriptorFree := rfl
@[simp] theorem State.setForce_fetches (p : Nat) (v : Option Force) : (s.setForce p v).fetches = s.fetches := rfl
@[simp] theorem State.setForce_draws (p : Nat) (v : Option Force) : (s.setForce p v).draws = s.draws := rfl
@[simp] theorem State.setForce_cues (p : Nat) (v : Option Force) : (s.setForce p v).cues = s.cues := rfl
@[simp] theorem State.setForce_actions (p : Nat) (v : Option Force) : (s.setForce p v).actions = s.actions := rfl
@[simp] theorem State.setForce_actionFree (p : Nat) (v : Option Force) :
    (s.setForce p v).actionFree = s.actionFree := rfl
@[simp] theorem State.setForce_lists (p : Nat) (v : Option Force) : (s.setForce p v).lists = s.lists := rfl
@[simp] theorem State.setForce_reply (p : Nat) (v : Option Force) : (s.setForce p v).reply = s.reply := rfl
@[simp] theorem State.setForce_outgoing (p : Nat) (v : Option Force) : (s.setForce p v).outgoing = s.outgoing := rfl
@[simp] theorem State.setForce_transaction (p : Nat) (v : Option Force) :
    (s.setForce p v).transaction = s.transaction := rfl
@[simp] theorem State.setForce_events (p : Nat) (v : Option Force) : (s.setForce p v).events = s.events := rfl
@[simp] theorem State.setForce_mask (p : Nat) (v : Option Force) : (s.setForce p v).mask = s.mask := rfl

/-! ### setFreezeCount -/

@[simp] theorem State.setFreezeCount_pending (g : Nat) (v : Nat) : (s.setFreezeCount g v).pending = s.pending := rfl
@[simp] theorem State.setFreezeCount_now (g : Nat) (v : Nat) : (s.setFreezeCount g v).now = s.now := rfl
@[simp] theorem State.setFreezeCount_device (g : Nat) (v : Nat) : (s.setFreezeCount g v).device = s.device := rfl
@[simp] theorem State.setFreezeCount_softClear (g : Nat) (v : Nat) :
    (s.setFreezeCount g v).softClear = s.softClear := rfl
@[simp] theorem State.setFreezeCount_work (g : Nat) (v : Nat) : (s.setFreezeCount g v).work = s.work := rfl
@[simp] theorem State.setFreezeCount_timer (g : Nat) (v : Nat) : (s.setFreezeCount g v).timer = s.timer := rfl
@[simp] theorem State.setFreezeCount_points (g : Nat) (v : Nat) : (s.setFreezeCount g v).points = s.points := rfl
@[simp] theorem State.setFreezeCount_occupancy (g : Nat) (v : Nat) :
    (s.setFreezeCount g v).occupancy = s.occupancy := rfl
@[simp] theorem State.setFreezeCount_groups (g : Nat) (v : Nat) : (s.setFreezeCount g v).groups = s.groups := rfl
@[simp] theorem State.setFreezeCount_curves (g : Nat) (v : Nat) : (s.setFreezeCount g v).curves = s.curves := rfl
@[simp] theorem State.setFreezeCount_results (g : Nat) (v : Nat) : (s.setFreezeCount g v).results = s.results := rfl
@[simp] theorem State.setFreezeCount_renderFrame (g : Nat) (v : Nat) :
    (s.setFreezeCount g v).renderFrame = s.renderFrame := rfl
@[simp] theorem State.setFreezeCount_sources (g : Nat) (v : Nat) : (s.setFreezeCount g v).sources = s.sources := rfl
@[simp] theorem State.setFreezeCount_interval (g : Nat) (v : Nat) : (s.setFreezeCount g v).interval = s.interval := rfl
@[simp] theorem State.setFreezeCount_slots (g : Nat) (v : Nat) : (s.setFreezeCount g v).slots = s.slots := rfl
@[simp] theorem State.setFreezeCount_names (g : Nat) (v : Nat) : (s.setFreezeCount g v).names = s.names := rfl
@[simp] theorem State.setFreezeCount_pool (g : Nat) (v : Nat) : (s.setFreezeCount g v).pool = s.pool := rfl
@[simp] theorem State.setFreezeCount_poolFree (g : Nat) (v : Nat) : (s.setFreezeCount g v).poolFree = s.poolFree := rfl
@[simp] theorem State.setFreezeCount_sequence (g : Nat) (v : Nat) : (s.setFreezeCount g v).sequence = s.sequence := rfl
@[simp] theorem State.setFreezeCount_queue (g : Nat) (v : Nat) : (s.setFreezeCount g v).queue = s.queue := rfl
@[simp] theorem State.setFreezeCount_arrival (g : Nat) (v : Nat) : (s.setFreezeCount g v).arrival = s.arrival := rfl
@[simp] theorem State.setFreezeCount_lastFailure (g : Nat) (v : Nat) :
    (s.setFreezeCount g v).lastFailure = s.lastFailure := rfl
@[simp] theorem State.setFreezeCount_forces (g : Nat) (v : Nat) : (s.setFreezeCount g v).forces = s.forces := rfl
@[simp] theorem State.setFreezeCount_freezes (g : Nat) (v : Nat) :
    (s.setFreezeCount g v).freezes = s.freezes.set Freeze.por g v := rfl
@[simp] theorem State.setFreezeCount_masters (g : Nat) (v : Nat) : (s.setFreezeCount g v).masters = s.masters := rfl
@[simp] theorem State.setFreezeCount_workLight (g : Nat) (v : Nat) :
    (s.setFreezeCount g v).workLight = s.workLight := rfl
@[simp] theorem State.setFreezeCount_wltPin (g : Nat) (v : Nat) : (s.setFreezeCount g v).wltPin = s.wltPin := rfl
@[simp] theorem State.setFreezeCount_wltSample (g : Nat) (v : Nat) :
    (s.setFreezeCount g v).wltSample = s.wltSample := rfl
@[simp] theorem State.setFreezeCount_wltRendered (g : Nat) (v : Nat) :
    (s.setFreezeCount g v).wltRendered = s.wltRendered := rfl
@[simp] theorem State.setFreezeCount_lines (g : Nat) (v : Nat) : (s.setFreezeCount g v).lines = s.lines := rfl
@[simp] theorem State.setFreezeCount_inputs (g : Nat) (v : Nat) : (s.setFreezeCount g v).inputs = s.inputs := rfl
@[simp] theorem State.setFreezeCount_tiles (g : Nat) (v : Nat) : (s.setFreezeCount g v).tiles = s.tiles := rfl
@[simp] theorem State.setFreezeCount_links (g : Nat) (v : Nat) : (s.setFreezeCount g v).links = s.links := rfl
@[simp] theorem State.setFreezeCount_plates (g : Nat) (v : Nat) : (s.setFreezeCount g v).plates = s.plates := rfl
@[simp] theorem State.setFreezeCount_descriptors (g : Nat) (v : Nat) :
    (s.setFreezeCount g v).descriptors = s.descriptors := rfl
@[simp] theorem State.setFreezeCount_descriptorFree (g : Nat) (v : Nat) :
    (s.setFreezeCount g v).descriptorFree = s.descriptorFree := rfl
@[simp] theorem State.setFreezeCount_fetches (g : Nat) (v : Nat) : (s.setFreezeCount g v).fetches = s.fetches := rfl
@[simp] theorem State.setFreezeCount_draws (g : Nat) (v : Nat) : (s.setFreezeCount g v).draws = s.draws := rfl
@[simp] theorem State.setFreezeCount_cues (g : Nat) (v : Nat) : (s.setFreezeCount g v).cues = s.cues := rfl
@[simp] theorem State.setFreezeCount_actions (g : Nat) (v : Nat) : (s.setFreezeCount g v).actions = s.actions := rfl
@[simp] theorem State.setFreezeCount_actionFree (g : Nat) (v : Nat) :
    (s.setFreezeCount g v).actionFree = s.actionFree := rfl
@[simp] theorem State.setFreezeCount_lists (g : Nat) (v : Nat) : (s.setFreezeCount g v).lists = s.lists := rfl
@[simp] theorem State.setFreezeCount_reply (g : Nat) (v : Nat) : (s.setFreezeCount g v).reply = s.reply := rfl
@[simp] theorem State.setFreezeCount_outgoing (g : Nat) (v : Nat) : (s.setFreezeCount g v).outgoing = s.outgoing := rfl
@[simp] theorem State.setFreezeCount_transaction (g : Nat) (v : Nat) :
    (s.setFreezeCount g v).transaction = s.transaction := rfl
@[simp] theorem State.setFreezeCount_events (g : Nat) (v : Nat) : (s.setFreezeCount g v).events = s.events := rfl
@[simp] theorem State.setFreezeCount_mask (g : Nat) (v : Nat) : (s.setFreezeCount g v).mask = s.mask := rfl

/-! ### setMaster -/

@[simp] theorem State.setMaster_pending (m : Nat) (v : Master) : (s.setMaster m v).pending = s.pending := rfl
@[simp] theorem State.setMaster_now (m : Nat) (v : Master) : (s.setMaster m v).now = s.now := rfl
@[simp] theorem State.setMaster_device (m : Nat) (v : Master) : (s.setMaster m v).device = s.device := rfl
@[simp] theorem State.setMaster_softClear (m : Nat) (v : Master) : (s.setMaster m v).softClear = s.softClear := rfl
@[simp] theorem State.setMaster_work (m : Nat) (v : Master) : (s.setMaster m v).work = s.work := rfl
@[simp] theorem State.setMaster_timer (m : Nat) (v : Master) : (s.setMaster m v).timer = s.timer := rfl
@[simp] theorem State.setMaster_points (m : Nat) (v : Master) : (s.setMaster m v).points = s.points := rfl
@[simp] theorem State.setMaster_occupancy (m : Nat) (v : Master) : (s.setMaster m v).occupancy = s.occupancy := rfl
@[simp] theorem State.setMaster_groups (m : Nat) (v : Master) : (s.setMaster m v).groups = s.groups := rfl
@[simp] theorem State.setMaster_curves (m : Nat) (v : Master) : (s.setMaster m v).curves = s.curves := rfl
@[simp] theorem State.setMaster_results (m : Nat) (v : Master) : (s.setMaster m v).results = s.results := rfl
@[simp] theorem State.setMaster_renderFrame (m : Nat) (v : Master) :
    (s.setMaster m v).renderFrame = s.renderFrame := rfl
@[simp] theorem State.setMaster_sources (m : Nat) (v : Master) : (s.setMaster m v).sources = s.sources := rfl
@[simp] theorem State.setMaster_interval (m : Nat) (v : Master) : (s.setMaster m v).interval = s.interval := rfl
@[simp] theorem State.setMaster_slots (m : Nat) (v : Master) : (s.setMaster m v).slots = s.slots := rfl
@[simp] theorem State.setMaster_names (m : Nat) (v : Master) : (s.setMaster m v).names = s.names := rfl
@[simp] theorem State.setMaster_pool (m : Nat) (v : Master) : (s.setMaster m v).pool = s.pool := rfl
@[simp] theorem State.setMaster_poolFree (m : Nat) (v : Master) : (s.setMaster m v).poolFree = s.poolFree := rfl
@[simp] theorem State.setMaster_sequence (m : Nat) (v : Master) : (s.setMaster m v).sequence = s.sequence := rfl
@[simp] theorem State.setMaster_queue (m : Nat) (v : Master) : (s.setMaster m v).queue = s.queue := rfl
@[simp] theorem State.setMaster_arrival (m : Nat) (v : Master) : (s.setMaster m v).arrival = s.arrival := rfl
@[simp] theorem State.setMaster_lastFailure (m : Nat) (v : Master) :
    (s.setMaster m v).lastFailure = s.lastFailure := rfl
@[simp] theorem State.setMaster_forces (m : Nat) (v : Master) : (s.setMaster m v).forces = s.forces := rfl
@[simp] theorem State.setMaster_freezes (m : Nat) (v : Master) : (s.setMaster m v).freezes = s.freezes := rfl
@[simp] theorem State.setMaster_masters (m : Nat) (v : Master) :
    (s.setMaster m v).masters = s.masters.set Master.por m v := rfl
@[simp] theorem State.setMaster_workLight (m : Nat) (v : Master) : (s.setMaster m v).workLight = s.workLight := rfl
@[simp] theorem State.setMaster_wltPin (m : Nat) (v : Master) : (s.setMaster m v).wltPin = s.wltPin := rfl
@[simp] theorem State.setMaster_wltSample (m : Nat) (v : Master) : (s.setMaster m v).wltSample = s.wltSample := rfl
@[simp] theorem State.setMaster_wltRendered (m : Nat) (v : Master) :
    (s.setMaster m v).wltRendered = s.wltRendered := rfl
@[simp] theorem State.setMaster_lines (m : Nat) (v : Master) : (s.setMaster m v).lines = s.lines := rfl
@[simp] theorem State.setMaster_inputs (m : Nat) (v : Master) : (s.setMaster m v).inputs = s.inputs := rfl
@[simp] theorem State.setMaster_tiles (m : Nat) (v : Master) : (s.setMaster m v).tiles = s.tiles := rfl
@[simp] theorem State.setMaster_links (m : Nat) (v : Master) : (s.setMaster m v).links = s.links := rfl
@[simp] theorem State.setMaster_plates (m : Nat) (v : Master) : (s.setMaster m v).plates = s.plates := rfl
@[simp] theorem State.setMaster_descriptors (m : Nat) (v : Master) :
    (s.setMaster m v).descriptors = s.descriptors := rfl
@[simp] theorem State.setMaster_descriptorFree (m : Nat) (v : Master) :
    (s.setMaster m v).descriptorFree = s.descriptorFree := rfl
@[simp] theorem State.setMaster_fetches (m : Nat) (v : Master) : (s.setMaster m v).fetches = s.fetches := rfl
@[simp] theorem State.setMaster_draws (m : Nat) (v : Master) : (s.setMaster m v).draws = s.draws := rfl
@[simp] theorem State.setMaster_cues (m : Nat) (v : Master) : (s.setMaster m v).cues = s.cues := rfl
@[simp] theorem State.setMaster_actions (m : Nat) (v : Master) : (s.setMaster m v).actions = s.actions := rfl
@[simp] theorem State.setMaster_actionFree (m : Nat) (v : Master) : (s.setMaster m v).actionFree = s.actionFree := rfl
@[simp] theorem State.setMaster_lists (m : Nat) (v : Master) : (s.setMaster m v).lists = s.lists := rfl
@[simp] theorem State.setMaster_reply (m : Nat) (v : Master) : (s.setMaster m v).reply = s.reply := rfl
@[simp] theorem State.setMaster_outgoing (m : Nat) (v : Master) : (s.setMaster m v).outgoing = s.outgoing := rfl
@[simp] theorem State.setMaster_transaction (m : Nat) (v : Master) :
    (s.setMaster m v).transaction = s.transaction := rfl
@[simp] theorem State.setMaster_events (m : Nat) (v : Master) : (s.setMaster m v).events = s.events := rfl
@[simp] theorem State.setMaster_mask (m : Nat) (v : Master) : (s.setMaster m v).mask = s.mask := rfl

/-! ### setLine -/

@[simp] theorem State.setLine_pending (l : Nat) (v : Line) : (s.setLine l v).pending = s.pending := rfl
@[simp] theorem State.setLine_now (l : Nat) (v : Line) : (s.setLine l v).now = s.now := rfl
@[simp] theorem State.setLine_device (l : Nat) (v : Line) : (s.setLine l v).device = s.device := rfl
@[simp] theorem State.setLine_softClear (l : Nat) (v : Line) : (s.setLine l v).softClear = s.softClear := rfl
@[simp] theorem State.setLine_work (l : Nat) (v : Line) : (s.setLine l v).work = s.work := rfl
@[simp] theorem State.setLine_timer (l : Nat) (v : Line) : (s.setLine l v).timer = s.timer := rfl
@[simp] theorem State.setLine_points (l : Nat) (v : Line) : (s.setLine l v).points = s.points := rfl
@[simp] theorem State.setLine_occupancy (l : Nat) (v : Line) : (s.setLine l v).occupancy = s.occupancy := rfl
@[simp] theorem State.setLine_groups (l : Nat) (v : Line) : (s.setLine l v).groups = s.groups := rfl
@[simp] theorem State.setLine_curves (l : Nat) (v : Line) : (s.setLine l v).curves = s.curves := rfl
@[simp] theorem State.setLine_results (l : Nat) (v : Line) : (s.setLine l v).results = s.results := rfl
@[simp] theorem State.setLine_renderFrame (l : Nat) (v : Line) : (s.setLine l v).renderFrame = s.renderFrame := rfl
@[simp] theorem State.setLine_sources (l : Nat) (v : Line) : (s.setLine l v).sources = s.sources := rfl
@[simp] theorem State.setLine_interval (l : Nat) (v : Line) : (s.setLine l v).interval = s.interval := rfl
@[simp] theorem State.setLine_slots (l : Nat) (v : Line) : (s.setLine l v).slots = s.slots := rfl
@[simp] theorem State.setLine_names (l : Nat) (v : Line) : (s.setLine l v).names = s.names := rfl
@[simp] theorem State.setLine_pool (l : Nat) (v : Line) : (s.setLine l v).pool = s.pool := rfl
@[simp] theorem State.setLine_poolFree (l : Nat) (v : Line) : (s.setLine l v).poolFree = s.poolFree := rfl
@[simp] theorem State.setLine_sequence (l : Nat) (v : Line) : (s.setLine l v).sequence = s.sequence := rfl
@[simp] theorem State.setLine_queue (l : Nat) (v : Line) : (s.setLine l v).queue = s.queue := rfl
@[simp] theorem State.setLine_arrival (l : Nat) (v : Line) : (s.setLine l v).arrival = s.arrival := rfl
@[simp] theorem State.setLine_lastFailure (l : Nat) (v : Line) : (s.setLine l v).lastFailure = s.lastFailure := rfl
@[simp] theorem State.setLine_forces (l : Nat) (v : Line) : (s.setLine l v).forces = s.forces := rfl
@[simp] theorem State.setLine_freezes (l : Nat) (v : Line) : (s.setLine l v).freezes = s.freezes := rfl
@[simp] theorem State.setLine_masters (l : Nat) (v : Line) : (s.setLine l v).masters = s.masters := rfl
@[simp] theorem State.setLine_workLight (l : Nat) (v : Line) : (s.setLine l v).workLight = s.workLight := rfl
@[simp] theorem State.setLine_wltPin (l : Nat) (v : Line) : (s.setLine l v).wltPin = s.wltPin := rfl
@[simp] theorem State.setLine_wltSample (l : Nat) (v : Line) : (s.setLine l v).wltSample = s.wltSample := rfl
@[simp] theorem State.setLine_wltRendered (l : Nat) (v : Line) : (s.setLine l v).wltRendered = s.wltRendered := rfl
@[simp] theorem State.setLine_lines (l : Nat) (v : Line) : (s.setLine l v).lines = s.lines.set Line.por l v := rfl
@[simp] theorem State.setLine_inputs (l : Nat) (v : Line) : (s.setLine l v).inputs = s.inputs := rfl
@[simp] theorem State.setLine_tiles (l : Nat) (v : Line) : (s.setLine l v).tiles = s.tiles := rfl
@[simp] theorem State.setLine_links (l : Nat) (v : Line) : (s.setLine l v).links = s.links := rfl
@[simp] theorem State.setLine_plates (l : Nat) (v : Line) : (s.setLine l v).plates = s.plates := rfl
@[simp] theorem State.setLine_descriptors (l : Nat) (v : Line) : (s.setLine l v).descriptors = s.descriptors := rfl
@[simp] theorem State.setLine_descriptorFree (l : Nat) (v : Line) :
    (s.setLine l v).descriptorFree = s.descriptorFree := rfl
@[simp] theorem State.setLine_fetches (l : Nat) (v : Line) : (s.setLine l v).fetches = s.fetches := rfl
@[simp] theorem State.setLine_draws (l : Nat) (v : Line) : (s.setLine l v).draws = s.draws := rfl
@[simp] theorem State.setLine_cues (l : Nat) (v : Line) : (s.setLine l v).cues = s.cues := rfl
@[simp] theorem State.setLine_actions (l : Nat) (v : Line) : (s.setLine l v).actions = s.actions := rfl
@[simp] theorem State.setLine_actionFree (l : Nat) (v : Line) : (s.setLine l v).actionFree = s.actionFree := rfl
@[simp] theorem State.setLine_lists (l : Nat) (v : Line) : (s.setLine l v).lists = s.lists := rfl
@[simp] theorem State.setLine_reply (l : Nat) (v : Line) : (s.setLine l v).reply = s.reply := rfl
@[simp] theorem State.setLine_outgoing (l : Nat) (v : Line) : (s.setLine l v).outgoing = s.outgoing := rfl
@[simp] theorem State.setLine_transaction (l : Nat) (v : Line) : (s.setLine l v).transaction = s.transaction := rfl
@[simp] theorem State.setLine_events (l : Nat) (v : Line) : (s.setLine l v).events = s.events := rfl
@[simp] theorem State.setLine_mask (l : Nat) (v : Line) : (s.setLine l v).mask = s.mask := rfl

/-! ### setInput -/

@[simp] theorem State.setInput_pending (i : Nat) (v : Input) : (s.setInput i v).pending = s.pending := rfl
@[simp] theorem State.setInput_now (i : Nat) (v : Input) : (s.setInput i v).now = s.now := rfl
@[simp] theorem State.setInput_device (i : Nat) (v : Input) : (s.setInput i v).device = s.device := rfl
@[simp] theorem State.setInput_softClear (i : Nat) (v : Input) : (s.setInput i v).softClear = s.softClear := rfl
@[simp] theorem State.setInput_work (i : Nat) (v : Input) : (s.setInput i v).work = s.work := rfl
@[simp] theorem State.setInput_timer (i : Nat) (v : Input) : (s.setInput i v).timer = s.timer := rfl
@[simp] theorem State.setInput_points (i : Nat) (v : Input) : (s.setInput i v).points = s.points := rfl
@[simp] theorem State.setInput_occupancy (i : Nat) (v : Input) : (s.setInput i v).occupancy = s.occupancy := rfl
@[simp] theorem State.setInput_groups (i : Nat) (v : Input) : (s.setInput i v).groups = s.groups := rfl
@[simp] theorem State.setInput_curves (i : Nat) (v : Input) : (s.setInput i v).curves = s.curves := rfl
@[simp] theorem State.setInput_results (i : Nat) (v : Input) : (s.setInput i v).results = s.results := rfl
@[simp] theorem State.setInput_renderFrame (i : Nat) (v : Input) : (s.setInput i v).renderFrame = s.renderFrame := rfl
@[simp] theorem State.setInput_sources (i : Nat) (v : Input) : (s.setInput i v).sources = s.sources := rfl
@[simp] theorem State.setInput_interval (i : Nat) (v : Input) : (s.setInput i v).interval = s.interval := rfl
@[simp] theorem State.setInput_slots (i : Nat) (v : Input) : (s.setInput i v).slots = s.slots := rfl
@[simp] theorem State.setInput_names (i : Nat) (v : Input) : (s.setInput i v).names = s.names := rfl
@[simp] theorem State.setInput_pool (i : Nat) (v : Input) : (s.setInput i v).pool = s.pool := rfl
@[simp] theorem State.setInput_poolFree (i : Nat) (v : Input) : (s.setInput i v).poolFree = s.poolFree := rfl
@[simp] theorem State.setInput_sequence (i : Nat) (v : Input) : (s.setInput i v).sequence = s.sequence := rfl
@[simp] theorem State.setInput_queue (i : Nat) (v : Input) : (s.setInput i v).queue = s.queue := rfl
@[simp] theorem State.setInput_arrival (i : Nat) (v : Input) : (s.setInput i v).arrival = s.arrival := rfl
@[simp] theorem State.setInput_lastFailure (i : Nat) (v : Input) : (s.setInput i v).lastFailure = s.lastFailure := rfl
@[simp] theorem State.setInput_forces (i : Nat) (v : Input) : (s.setInput i v).forces = s.forces := rfl
@[simp] theorem State.setInput_freezes (i : Nat) (v : Input) : (s.setInput i v).freezes = s.freezes := rfl
@[simp] theorem State.setInput_masters (i : Nat) (v : Input) : (s.setInput i v).masters = s.masters := rfl
@[simp] theorem State.setInput_workLight (i : Nat) (v : Input) : (s.setInput i v).workLight = s.workLight := rfl
@[simp] theorem State.setInput_wltPin (i : Nat) (v : Input) : (s.setInput i v).wltPin = s.wltPin := rfl
@[simp] theorem State.setInput_wltSample (i : Nat) (v : Input) : (s.setInput i v).wltSample = s.wltSample := rfl
@[simp] theorem State.setInput_wltRendered (i : Nat) (v : Input) : (s.setInput i v).wltRendered = s.wltRendered := rfl
@[simp] theorem State.setInput_lines (i : Nat) (v : Input) : (s.setInput i v).lines = s.lines := rfl
@[simp] theorem State.setInput_inputs (i : Nat) (v : Input) :
    (s.setInput i v).inputs = s.inputs.set Input.por i v := rfl
@[simp] theorem State.setInput_tiles (i : Nat) (v : Input) : (s.setInput i v).tiles = s.tiles := rfl
@[simp] theorem State.setInput_links (i : Nat) (v : Input) : (s.setInput i v).links = s.links := rfl
@[simp] theorem State.setInput_plates (i : Nat) (v : Input) : (s.setInput i v).plates = s.plates := rfl
@[simp] theorem State.setInput_descriptors (i : Nat) (v : Input) : (s.setInput i v).descriptors = s.descriptors := rfl
@[simp] theorem State.setInput_descriptorFree (i : Nat) (v : Input) :
    (s.setInput i v).descriptorFree = s.descriptorFree := rfl
@[simp] theorem State.setInput_fetches (i : Nat) (v : Input) : (s.setInput i v).fetches = s.fetches := rfl
@[simp] theorem State.setInput_draws (i : Nat) (v : Input) : (s.setInput i v).draws = s.draws := rfl
@[simp] theorem State.setInput_cues (i : Nat) (v : Input) : (s.setInput i v).cues = s.cues := rfl
@[simp] theorem State.setInput_actions (i : Nat) (v : Input) : (s.setInput i v).actions = s.actions := rfl
@[simp] theorem State.setInput_actionFree (i : Nat) (v : Input) : (s.setInput i v).actionFree = s.actionFree := rfl
@[simp] theorem State.setInput_lists (i : Nat) (v : Input) : (s.setInput i v).lists = s.lists := rfl
@[simp] theorem State.setInput_reply (i : Nat) (v : Input) : (s.setInput i v).reply = s.reply := rfl
@[simp] theorem State.setInput_outgoing (i : Nat) (v : Input) : (s.setInput i v).outgoing = s.outgoing := rfl
@[simp] theorem State.setInput_transaction (i : Nat) (v : Input) : (s.setInput i v).transaction = s.transaction := rfl
@[simp] theorem State.setInput_events (i : Nat) (v : Input) : (s.setInput i v).events = s.events := rfl
@[simp] theorem State.setInput_mask (i : Nat) (v : Input) : (s.setInput i v).mask = s.mask := rfl

/-! ### setTile -/

@[simp] theorem State.setTile_pending (t : Nat) (v : Tile) : (s.setTile t v).pending = s.pending := rfl
@[simp] theorem State.setTile_now (t : Nat) (v : Tile) : (s.setTile t v).now = s.now := rfl
@[simp] theorem State.setTile_device (t : Nat) (v : Tile) : (s.setTile t v).device = s.device := rfl
@[simp] theorem State.setTile_softClear (t : Nat) (v : Tile) : (s.setTile t v).softClear = s.softClear := rfl
@[simp] theorem State.setTile_work (t : Nat) (v : Tile) : (s.setTile t v).work = s.work := rfl
@[simp] theorem State.setTile_timer (t : Nat) (v : Tile) : (s.setTile t v).timer = s.timer := rfl
@[simp] theorem State.setTile_points (t : Nat) (v : Tile) : (s.setTile t v).points = s.points := rfl
@[simp] theorem State.setTile_occupancy (t : Nat) (v : Tile) : (s.setTile t v).occupancy = s.occupancy := rfl
@[simp] theorem State.setTile_groups (t : Nat) (v : Tile) : (s.setTile t v).groups = s.groups := rfl
@[simp] theorem State.setTile_curves (t : Nat) (v : Tile) : (s.setTile t v).curves = s.curves := rfl
@[simp] theorem State.setTile_results (t : Nat) (v : Tile) : (s.setTile t v).results = s.results := rfl
@[simp] theorem State.setTile_renderFrame (t : Nat) (v : Tile) : (s.setTile t v).renderFrame = s.renderFrame := rfl
@[simp] theorem State.setTile_sources (t : Nat) (v : Tile) : (s.setTile t v).sources = s.sources := rfl
@[simp] theorem State.setTile_interval (t : Nat) (v : Tile) : (s.setTile t v).interval = s.interval := rfl
@[simp] theorem State.setTile_slots (t : Nat) (v : Tile) : (s.setTile t v).slots = s.slots := rfl
@[simp] theorem State.setTile_names (t : Nat) (v : Tile) : (s.setTile t v).names = s.names := rfl
@[simp] theorem State.setTile_pool (t : Nat) (v : Tile) : (s.setTile t v).pool = s.pool := rfl
@[simp] theorem State.setTile_poolFree (t : Nat) (v : Tile) : (s.setTile t v).poolFree = s.poolFree := rfl
@[simp] theorem State.setTile_sequence (t : Nat) (v : Tile) : (s.setTile t v).sequence = s.sequence := rfl
@[simp] theorem State.setTile_queue (t : Nat) (v : Tile) : (s.setTile t v).queue = s.queue := rfl
@[simp] theorem State.setTile_arrival (t : Nat) (v : Tile) : (s.setTile t v).arrival = s.arrival := rfl
@[simp] theorem State.setTile_lastFailure (t : Nat) (v : Tile) : (s.setTile t v).lastFailure = s.lastFailure := rfl
@[simp] theorem State.setTile_forces (t : Nat) (v : Tile) : (s.setTile t v).forces = s.forces := rfl
@[simp] theorem State.setTile_freezes (t : Nat) (v : Tile) : (s.setTile t v).freezes = s.freezes := rfl
@[simp] theorem State.setTile_masters (t : Nat) (v : Tile) : (s.setTile t v).masters = s.masters := rfl
@[simp] theorem State.setTile_workLight (t : Nat) (v : Tile) : (s.setTile t v).workLight = s.workLight := rfl
@[simp] theorem State.setTile_wltPin (t : Nat) (v : Tile) : (s.setTile t v).wltPin = s.wltPin := rfl
@[simp] theorem State.setTile_wltSample (t : Nat) (v : Tile) : (s.setTile t v).wltSample = s.wltSample := rfl
@[simp] theorem State.setTile_wltRendered (t : Nat) (v : Tile) : (s.setTile t v).wltRendered = s.wltRendered := rfl
@[simp] theorem State.setTile_lines (t : Nat) (v : Tile) : (s.setTile t v).lines = s.lines := rfl
@[simp] theorem State.setTile_inputs (t : Nat) (v : Tile) : (s.setTile t v).inputs = s.inputs := rfl
@[simp] theorem State.setTile_tiles (t : Nat) (v : Tile) : (s.setTile t v).tiles = s.tiles.set Tile.por t v := rfl
@[simp] theorem State.setTile_links (t : Nat) (v : Tile) : (s.setTile t v).links = s.links := rfl
@[simp] theorem State.setTile_plates (t : Nat) (v : Tile) : (s.setTile t v).plates = s.plates := rfl
@[simp] theorem State.setTile_descriptors (t : Nat) (v : Tile) : (s.setTile t v).descriptors = s.descriptors := rfl
@[simp] theorem State.setTile_descriptorFree (t : Nat) (v : Tile) :
    (s.setTile t v).descriptorFree = s.descriptorFree := rfl
@[simp] theorem State.setTile_fetches (t : Nat) (v : Tile) : (s.setTile t v).fetches = s.fetches := rfl
@[simp] theorem State.setTile_draws (t : Nat) (v : Tile) : (s.setTile t v).draws = s.draws := rfl
@[simp] theorem State.setTile_cues (t : Nat) (v : Tile) : (s.setTile t v).cues = s.cues := rfl
@[simp] theorem State.setTile_actions (t : Nat) (v : Tile) : (s.setTile t v).actions = s.actions := rfl
@[simp] theorem State.setTile_actionFree (t : Nat) (v : Tile) : (s.setTile t v).actionFree = s.actionFree := rfl
@[simp] theorem State.setTile_lists (t : Nat) (v : Tile) : (s.setTile t v).lists = s.lists := rfl
@[simp] theorem State.setTile_reply (t : Nat) (v : Tile) : (s.setTile t v).reply = s.reply := rfl
@[simp] theorem State.setTile_outgoing (t : Nat) (v : Tile) : (s.setTile t v).outgoing = s.outgoing := rfl
@[simp] theorem State.setTile_transaction (t : Nat) (v : Tile) : (s.setTile t v).transaction = s.transaction := rfl
@[simp] theorem State.setTile_events (t : Nat) (v : Tile) : (s.setTile t v).events = s.events := rfl
@[simp] theorem State.setTile_mask (t : Nat) (v : Tile) : (s.setTile t v).mask = s.mask := rfl

/-! ### setLink -/

@[simp] theorem State.setLink_pending (l : Nat) (v : Link) : (s.setLink l v).pending = s.pending := rfl
@[simp] theorem State.setLink_now (l : Nat) (v : Link) : (s.setLink l v).now = s.now := rfl
@[simp] theorem State.setLink_device (l : Nat) (v : Link) : (s.setLink l v).device = s.device := rfl
@[simp] theorem State.setLink_softClear (l : Nat) (v : Link) : (s.setLink l v).softClear = s.softClear := rfl
@[simp] theorem State.setLink_work (l : Nat) (v : Link) : (s.setLink l v).work = s.work := rfl
@[simp] theorem State.setLink_timer (l : Nat) (v : Link) : (s.setLink l v).timer = s.timer := rfl
@[simp] theorem State.setLink_points (l : Nat) (v : Link) : (s.setLink l v).points = s.points := rfl
@[simp] theorem State.setLink_occupancy (l : Nat) (v : Link) : (s.setLink l v).occupancy = s.occupancy := rfl
@[simp] theorem State.setLink_groups (l : Nat) (v : Link) : (s.setLink l v).groups = s.groups := rfl
@[simp] theorem State.setLink_curves (l : Nat) (v : Link) : (s.setLink l v).curves = s.curves := rfl
@[simp] theorem State.setLink_results (l : Nat) (v : Link) : (s.setLink l v).results = s.results := rfl
@[simp] theorem State.setLink_renderFrame (l : Nat) (v : Link) : (s.setLink l v).renderFrame = s.renderFrame := rfl
@[simp] theorem State.setLink_sources (l : Nat) (v : Link) : (s.setLink l v).sources = s.sources := rfl
@[simp] theorem State.setLink_interval (l : Nat) (v : Link) : (s.setLink l v).interval = s.interval := rfl
@[simp] theorem State.setLink_slots (l : Nat) (v : Link) : (s.setLink l v).slots = s.slots := rfl
@[simp] theorem State.setLink_names (l : Nat) (v : Link) : (s.setLink l v).names = s.names := rfl
@[simp] theorem State.setLink_pool (l : Nat) (v : Link) : (s.setLink l v).pool = s.pool := rfl
@[simp] theorem State.setLink_poolFree (l : Nat) (v : Link) : (s.setLink l v).poolFree = s.poolFree := rfl
@[simp] theorem State.setLink_sequence (l : Nat) (v : Link) : (s.setLink l v).sequence = s.sequence := rfl
@[simp] theorem State.setLink_queue (l : Nat) (v : Link) : (s.setLink l v).queue = s.queue := rfl
@[simp] theorem State.setLink_arrival (l : Nat) (v : Link) : (s.setLink l v).arrival = s.arrival := rfl
@[simp] theorem State.setLink_lastFailure (l : Nat) (v : Link) : (s.setLink l v).lastFailure = s.lastFailure := rfl
@[simp] theorem State.setLink_forces (l : Nat) (v : Link) : (s.setLink l v).forces = s.forces := rfl
@[simp] theorem State.setLink_freezes (l : Nat) (v : Link) : (s.setLink l v).freezes = s.freezes := rfl
@[simp] theorem State.setLink_masters (l : Nat) (v : Link) : (s.setLink l v).masters = s.masters := rfl
@[simp] theorem State.setLink_workLight (l : Nat) (v : Link) : (s.setLink l v).workLight = s.workLight := rfl
@[simp] theorem State.setLink_wltPin (l : Nat) (v : Link) : (s.setLink l v).wltPin = s.wltPin := rfl
@[simp] theorem State.setLink_wltSample (l : Nat) (v : Link) : (s.setLink l v).wltSample = s.wltSample := rfl
@[simp] theorem State.setLink_wltRendered (l : Nat) (v : Link) : (s.setLink l v).wltRendered = s.wltRendered := rfl
@[simp] theorem State.setLink_lines (l : Nat) (v : Link) : (s.setLink l v).lines = s.lines := rfl
@[simp] theorem State.setLink_inputs (l : Nat) (v : Link) : (s.setLink l v).inputs = s.inputs := rfl
@[simp] theorem State.setLink_tiles (l : Nat) (v : Link) : (s.setLink l v).tiles = s.tiles := rfl
@[simp] theorem State.setLink_links (l : Nat) (v : Link) : (s.setLink l v).links = s.links.set Link.por l v := rfl
@[simp] theorem State.setLink_plates (l : Nat) (v : Link) : (s.setLink l v).plates = s.plates := rfl
@[simp] theorem State.setLink_descriptors (l : Nat) (v : Link) : (s.setLink l v).descriptors = s.descriptors := rfl
@[simp] theorem State.setLink_descriptorFree (l : Nat) (v : Link) :
    (s.setLink l v).descriptorFree = s.descriptorFree := rfl
@[simp] theorem State.setLink_fetches (l : Nat) (v : Link) : (s.setLink l v).fetches = s.fetches := rfl
@[simp] theorem State.setLink_draws (l : Nat) (v : Link) : (s.setLink l v).draws = s.draws := rfl
@[simp] theorem State.setLink_cues (l : Nat) (v : Link) : (s.setLink l v).cues = s.cues := rfl
@[simp] theorem State.setLink_actions (l : Nat) (v : Link) : (s.setLink l v).actions = s.actions := rfl
@[simp] theorem State.setLink_actionFree (l : Nat) (v : Link) : (s.setLink l v).actionFree = s.actionFree := rfl
@[simp] theorem State.setLink_lists (l : Nat) (v : Link) : (s.setLink l v).lists = s.lists := rfl
@[simp] theorem State.setLink_reply (l : Nat) (v : Link) : (s.setLink l v).reply = s.reply := rfl
@[simp] theorem State.setLink_outgoing (l : Nat) (v : Link) : (s.setLink l v).outgoing = s.outgoing := rfl
@[simp] theorem State.setLink_transaction (l : Nat) (v : Link) : (s.setLink l v).transaction = s.transaction := rfl
@[simp] theorem State.setLink_events (l : Nat) (v : Link) : (s.setLink l v).events = s.events := rfl
@[simp] theorem State.setLink_mask (l : Nat) (v : Link) : (s.setLink l v).mask = s.mask := rfl

/-! ### setPlate -/

@[simp] theorem State.setPlate_pending (p : Nat) (v : Plate) : (s.setPlate p v).pending = s.pending := rfl
@[simp] theorem State.setPlate_now (p : Nat) (v : Plate) : (s.setPlate p v).now = s.now := rfl
@[simp] theorem State.setPlate_device (p : Nat) (v : Plate) : (s.setPlate p v).device = s.device := rfl
@[simp] theorem State.setPlate_softClear (p : Nat) (v : Plate) : (s.setPlate p v).softClear = s.softClear := rfl
@[simp] theorem State.setPlate_work (p : Nat) (v : Plate) : (s.setPlate p v).work = s.work := rfl
@[simp] theorem State.setPlate_timer (p : Nat) (v : Plate) : (s.setPlate p v).timer = s.timer := rfl
@[simp] theorem State.setPlate_points (p : Nat) (v : Plate) : (s.setPlate p v).points = s.points := rfl
@[simp] theorem State.setPlate_occupancy (p : Nat) (v : Plate) : (s.setPlate p v).occupancy = s.occupancy := rfl
@[simp] theorem State.setPlate_groups (p : Nat) (v : Plate) : (s.setPlate p v).groups = s.groups := rfl
@[simp] theorem State.setPlate_curves (p : Nat) (v : Plate) : (s.setPlate p v).curves = s.curves := rfl
@[simp] theorem State.setPlate_results (p : Nat) (v : Plate) : (s.setPlate p v).results = s.results := rfl
@[simp] theorem State.setPlate_renderFrame (p : Nat) (v : Plate) : (s.setPlate p v).renderFrame = s.renderFrame := rfl
@[simp] theorem State.setPlate_sources (p : Nat) (v : Plate) : (s.setPlate p v).sources = s.sources := rfl
@[simp] theorem State.setPlate_interval (p : Nat) (v : Plate) : (s.setPlate p v).interval = s.interval := rfl
@[simp] theorem State.setPlate_slots (p : Nat) (v : Plate) : (s.setPlate p v).slots = s.slots := rfl
@[simp] theorem State.setPlate_names (p : Nat) (v : Plate) : (s.setPlate p v).names = s.names := rfl
@[simp] theorem State.setPlate_pool (p : Nat) (v : Plate) : (s.setPlate p v).pool = s.pool := rfl
@[simp] theorem State.setPlate_poolFree (p : Nat) (v : Plate) : (s.setPlate p v).poolFree = s.poolFree := rfl
@[simp] theorem State.setPlate_sequence (p : Nat) (v : Plate) : (s.setPlate p v).sequence = s.sequence := rfl
@[simp] theorem State.setPlate_queue (p : Nat) (v : Plate) : (s.setPlate p v).queue = s.queue := rfl
@[simp] theorem State.setPlate_arrival (p : Nat) (v : Plate) : (s.setPlate p v).arrival = s.arrival := rfl
@[simp] theorem State.setPlate_lastFailure (p : Nat) (v : Plate) : (s.setPlate p v).lastFailure = s.lastFailure := rfl
@[simp] theorem State.setPlate_forces (p : Nat) (v : Plate) : (s.setPlate p v).forces = s.forces := rfl
@[simp] theorem State.setPlate_freezes (p : Nat) (v : Plate) : (s.setPlate p v).freezes = s.freezes := rfl
@[simp] theorem State.setPlate_masters (p : Nat) (v : Plate) : (s.setPlate p v).masters = s.masters := rfl
@[simp] theorem State.setPlate_workLight (p : Nat) (v : Plate) : (s.setPlate p v).workLight = s.workLight := rfl
@[simp] theorem State.setPlate_wltPin (p : Nat) (v : Plate) : (s.setPlate p v).wltPin = s.wltPin := rfl
@[simp] theorem State.setPlate_wltSample (p : Nat) (v : Plate) : (s.setPlate p v).wltSample = s.wltSample := rfl
@[simp] theorem State.setPlate_wltRendered (p : Nat) (v : Plate) : (s.setPlate p v).wltRendered = s.wltRendered := rfl
@[simp] theorem State.setPlate_lines (p : Nat) (v : Plate) : (s.setPlate p v).lines = s.lines := rfl
@[simp] theorem State.setPlate_inputs (p : Nat) (v : Plate) : (s.setPlate p v).inputs = s.inputs := rfl
@[simp] theorem State.setPlate_tiles (p : Nat) (v : Plate) : (s.setPlate p v).tiles = s.tiles := rfl
@[simp] theorem State.setPlate_links (p : Nat) (v : Plate) : (s.setPlate p v).links = s.links := rfl
@[simp] theorem State.setPlate_plates (p : Nat) (v : Plate) :
    (s.setPlate p v).plates = s.plates.set Plate.por p v := rfl
@[simp] theorem State.setPlate_descriptors (p : Nat) (v : Plate) : (s.setPlate p v).descriptors = s.descriptors := rfl
@[simp] theorem State.setPlate_descriptorFree (p : Nat) (v : Plate) :
    (s.setPlate p v).descriptorFree = s.descriptorFree := rfl
@[simp] theorem State.setPlate_fetches (p : Nat) (v : Plate) : (s.setPlate p v).fetches = s.fetches := rfl
@[simp] theorem State.setPlate_draws (p : Nat) (v : Plate) : (s.setPlate p v).draws = s.draws := rfl
@[simp] theorem State.setPlate_cues (p : Nat) (v : Plate) : (s.setPlate p v).cues = s.cues := rfl
@[simp] theorem State.setPlate_actions (p : Nat) (v : Plate) : (s.setPlate p v).actions = s.actions := rfl
@[simp] theorem State.setPlate_actionFree (p : Nat) (v : Plate) : (s.setPlate p v).actionFree = s.actionFree := rfl
@[simp] theorem State.setPlate_lists (p : Nat) (v : Plate) : (s.setPlate p v).lists = s.lists := rfl
@[simp] theorem State.setPlate_reply (p : Nat) (v : Plate) : (s.setPlate p v).reply = s.reply := rfl
@[simp] theorem State.setPlate_outgoing (p : Nat) (v : Plate) : (s.setPlate p v).outgoing = s.outgoing := rfl
@[simp] theorem State.setPlate_transaction (p : Nat) (v : Plate) : (s.setPlate p v).transaction = s.transaction := rfl
@[simp] theorem State.setPlate_events (p : Nat) (v : Plate) : (s.setPlate p v).events = s.events := rfl
@[simp] theorem State.setPlate_mask (p : Nat) (v : Plate) : (s.setPlate p v).mask = s.mask := rfl

/-! ### setDescriptor -/

@[simp] theorem State.setDescriptor_pending (d : Nat) (v : Descriptor) :
    (s.setDescriptor d v).pending = s.pending := rfl
@[simp] theorem State.setDescriptor_now (d : Nat) (v : Descriptor) : (s.setDescriptor d v).now = s.now := rfl
@[simp] theorem State.setDescriptor_device (d : Nat) (v : Descriptor) : (s.setDescriptor d v).device = s.device := rfl
@[simp] theorem State.setDescriptor_softClear (d : Nat) (v : Descriptor) :
    (s.setDescriptor d v).softClear = s.softClear := rfl
@[simp] theorem State.setDescriptor_work (d : Nat) (v : Descriptor) : (s.setDescriptor d v).work = s.work := rfl
@[simp] theorem State.setDescriptor_timer (d : Nat) (v : Descriptor) : (s.setDescriptor d v).timer = s.timer := rfl
@[simp] theorem State.setDescriptor_points (d : Nat) (v : Descriptor) : (s.setDescriptor d v).points = s.points := rfl
@[simp] theorem State.setDescriptor_occupancy (d : Nat) (v : Descriptor) :
    (s.setDescriptor d v).occupancy = s.occupancy := rfl
@[simp] theorem State.setDescriptor_groups (d : Nat) (v : Descriptor) : (s.setDescriptor d v).groups = s.groups := rfl
@[simp] theorem State.setDescriptor_curves (d : Nat) (v : Descriptor) : (s.setDescriptor d v).curves = s.curves := rfl
@[simp] theorem State.setDescriptor_results (d : Nat) (v : Descriptor) :
    (s.setDescriptor d v).results = s.results := rfl
@[simp] theorem State.setDescriptor_renderFrame (d : Nat) (v : Descriptor) :
    (s.setDescriptor d v).renderFrame = s.renderFrame := rfl
@[simp] theorem State.setDescriptor_sources (d : Nat) (v : Descriptor) :
    (s.setDescriptor d v).sources = s.sources := rfl
@[simp] theorem State.setDescriptor_interval (d : Nat) (v : Descriptor) :
    (s.setDescriptor d v).interval = s.interval := rfl
@[simp] theorem State.setDescriptor_slots (d : Nat) (v : Descriptor) : (s.setDescriptor d v).slots = s.slots := rfl
@[simp] theorem State.setDescriptor_names (d : Nat) (v : Descriptor) : (s.setDescriptor d v).names = s.names := rfl
@[simp] theorem State.setDescriptor_pool (d : Nat) (v : Descriptor) : (s.setDescriptor d v).pool = s.pool := rfl
@[simp] theorem State.setDescriptor_poolFree (d : Nat) (v : Descriptor) :
    (s.setDescriptor d v).poolFree = s.poolFree := rfl
@[simp] theorem State.setDescriptor_sequence (d : Nat) (v : Descriptor) :
    (s.setDescriptor d v).sequence = s.sequence := rfl
@[simp] theorem State.setDescriptor_queue (d : Nat) (v : Descriptor) : (s.setDescriptor d v).queue = s.queue := rfl
@[simp] theorem State.setDescriptor_arrival (d : Nat) (v : Descriptor) :
    (s.setDescriptor d v).arrival = s.arrival := rfl
@[simp] theorem State.setDescriptor_lastFailure (d : Nat) (v : Descriptor) :
    (s.setDescriptor d v).lastFailure = s.lastFailure := rfl
@[simp] theorem State.setDescriptor_forces (d : Nat) (v : Descriptor) : (s.setDescriptor d v).forces = s.forces := rfl
@[simp] theorem State.setDescriptor_freezes (d : Nat) (v : Descriptor) :
    (s.setDescriptor d v).freezes = s.freezes := rfl
@[simp] theorem State.setDescriptor_masters (d : Nat) (v : Descriptor) :
    (s.setDescriptor d v).masters = s.masters := rfl
@[simp] theorem State.setDescriptor_workLight (d : Nat) (v : Descriptor) :
    (s.setDescriptor d v).workLight = s.workLight := rfl
@[simp] theorem State.setDescriptor_wltPin (d : Nat) (v : Descriptor) : (s.setDescriptor d v).wltPin = s.wltPin := rfl
@[simp] theorem State.setDescriptor_wltSample (d : Nat) (v : Descriptor) :
    (s.setDescriptor d v).wltSample = s.wltSample := rfl
@[simp] theorem State.setDescriptor_wltRendered (d : Nat) (v : Descriptor) :
    (s.setDescriptor d v).wltRendered = s.wltRendered := rfl
@[simp] theorem State.setDescriptor_lines (d : Nat) (v : Descriptor) : (s.setDescriptor d v).lines = s.lines := rfl
@[simp] theorem State.setDescriptor_inputs (d : Nat) (v : Descriptor) : (s.setDescriptor d v).inputs = s.inputs := rfl
@[simp] theorem State.setDescriptor_tiles (d : Nat) (v : Descriptor) : (s.setDescriptor d v).tiles = s.tiles := rfl
@[simp] theorem State.setDescriptor_links (d : Nat) (v : Descriptor) : (s.setDescriptor d v).links = s.links := rfl
@[simp] theorem State.setDescriptor_plates (d : Nat) (v : Descriptor) : (s.setDescriptor d v).plates = s.plates := rfl
@[simp] theorem State.setDescriptor_descriptors (d : Nat) (v : Descriptor) :
    (s.setDescriptor d v).descriptors = s.descriptors.set Descriptor.por d v := rfl
@[simp] theorem State.setDescriptor_descriptorFree (d : Nat) (v : Descriptor) :
    (s.setDescriptor d v).descriptorFree = s.descriptorFree := rfl
@[simp] theorem State.setDescriptor_fetches (d : Nat) (v : Descriptor) :
    (s.setDescriptor d v).fetches = s.fetches := rfl
@[simp] theorem State.setDescriptor_draws (d : Nat) (v : Descriptor) : (s.setDescriptor d v).draws = s.draws := rfl
@[simp] theorem State.setDescriptor_cues (d : Nat) (v : Descriptor) : (s.setDescriptor d v).cues = s.cues := rfl
@[simp] theorem State.setDescriptor_actions (d : Nat) (v : Descriptor) :
    (s.setDescriptor d v).actions = s.actions := rfl
@[simp] theorem State.setDescriptor_actionFree (d : Nat) (v : Descriptor) :
    (s.setDescriptor d v).actionFree = s.actionFree := rfl
@[simp] theorem State.setDescriptor_lists (d : Nat) (v : Descriptor) : (s.setDescriptor d v).lists = s.lists := rfl
@[simp] theorem State.setDescriptor_reply (d : Nat) (v : Descriptor) : (s.setDescriptor d v).reply = s.reply := rfl
@[simp] theorem State.setDescriptor_outgoing (d : Nat) (v : Descriptor) :
    (s.setDescriptor d v).outgoing = s.outgoing := rfl
@[simp] theorem State.setDescriptor_transaction (d : Nat) (v : Descriptor) :
    (s.setDescriptor d v).transaction = s.transaction := rfl
@[simp] theorem State.setDescriptor_events (d : Nat) (v : Descriptor) : (s.setDescriptor d v).events = s.events := rfl
@[simp] theorem State.setDescriptor_mask (d : Nat) (v : Descriptor) : (s.setDescriptor d v).mask = s.mask := rfl

/-! ### setCue -/

@[simp] theorem State.setCue_pending (c : Nat) (v : Cue) : (s.setCue c v).pending = s.pending := rfl
@[simp] theorem State.setCue_now (c : Nat) (v : Cue) : (s.setCue c v).now = s.now := rfl
@[simp] theorem State.setCue_device (c : Nat) (v : Cue) : (s.setCue c v).device = s.device := rfl
@[simp] theorem State.setCue_softClear (c : Nat) (v : Cue) : (s.setCue c v).softClear = s.softClear := rfl
@[simp] theorem State.setCue_work (c : Nat) (v : Cue) : (s.setCue c v).work = s.work := rfl
@[simp] theorem State.setCue_timer (c : Nat) (v : Cue) : (s.setCue c v).timer = s.timer := rfl
@[simp] theorem State.setCue_points (c : Nat) (v : Cue) : (s.setCue c v).points = s.points := rfl
@[simp] theorem State.setCue_occupancy (c : Nat) (v : Cue) : (s.setCue c v).occupancy = s.occupancy := rfl
@[simp] theorem State.setCue_groups (c : Nat) (v : Cue) : (s.setCue c v).groups = s.groups := rfl
@[simp] theorem State.setCue_curves (c : Nat) (v : Cue) : (s.setCue c v).curves = s.curves := rfl
@[simp] theorem State.setCue_results (c : Nat) (v : Cue) : (s.setCue c v).results = s.results := rfl
@[simp] theorem State.setCue_renderFrame (c : Nat) (v : Cue) : (s.setCue c v).renderFrame = s.renderFrame := rfl
@[simp] theorem State.setCue_sources (c : Nat) (v : Cue) : (s.setCue c v).sources = s.sources := rfl
@[simp] theorem State.setCue_interval (c : Nat) (v : Cue) : (s.setCue c v).interval = s.interval := rfl
@[simp] theorem State.setCue_slots (c : Nat) (v : Cue) : (s.setCue c v).slots = s.slots := rfl
@[simp] theorem State.setCue_names (c : Nat) (v : Cue) : (s.setCue c v).names = s.names := rfl
@[simp] theorem State.setCue_pool (c : Nat) (v : Cue) : (s.setCue c v).pool = s.pool := rfl
@[simp] theorem State.setCue_poolFree (c : Nat) (v : Cue) : (s.setCue c v).poolFree = s.poolFree := rfl
@[simp] theorem State.setCue_sequence (c : Nat) (v : Cue) : (s.setCue c v).sequence = s.sequence := rfl
@[simp] theorem State.setCue_queue (c : Nat) (v : Cue) : (s.setCue c v).queue = s.queue := rfl
@[simp] theorem State.setCue_arrival (c : Nat) (v : Cue) : (s.setCue c v).arrival = s.arrival := rfl
@[simp] theorem State.setCue_lastFailure (c : Nat) (v : Cue) : (s.setCue c v).lastFailure = s.lastFailure := rfl
@[simp] theorem State.setCue_forces (c : Nat) (v : Cue) : (s.setCue c v).forces = s.forces := rfl
@[simp] theorem State.setCue_freezes (c : Nat) (v : Cue) : (s.setCue c v).freezes = s.freezes := rfl
@[simp] theorem State.setCue_masters (c : Nat) (v : Cue) : (s.setCue c v).masters = s.masters := rfl
@[simp] theorem State.setCue_workLight (c : Nat) (v : Cue) : (s.setCue c v).workLight = s.workLight := rfl
@[simp] theorem State.setCue_wltPin (c : Nat) (v : Cue) : (s.setCue c v).wltPin = s.wltPin := rfl
@[simp] theorem State.setCue_wltSample (c : Nat) (v : Cue) : (s.setCue c v).wltSample = s.wltSample := rfl
@[simp] theorem State.setCue_wltRendered (c : Nat) (v : Cue) : (s.setCue c v).wltRendered = s.wltRendered := rfl
@[simp] theorem State.setCue_lines (c : Nat) (v : Cue) : (s.setCue c v).lines = s.lines := rfl
@[simp] theorem State.setCue_inputs (c : Nat) (v : Cue) : (s.setCue c v).inputs = s.inputs := rfl
@[simp] theorem State.setCue_tiles (c : Nat) (v : Cue) : (s.setCue c v).tiles = s.tiles := rfl
@[simp] theorem State.setCue_links (c : Nat) (v : Cue) : (s.setCue c v).links = s.links := rfl
@[simp] theorem State.setCue_plates (c : Nat) (v : Cue) : (s.setCue c v).plates = s.plates := rfl
@[simp] theorem State.setCue_descriptors (c : Nat) (v : Cue) : (s.setCue c v).descriptors = s.descriptors := rfl
@[simp] theorem State.setCue_descriptorFree (c : Nat) (v : Cue) :
    (s.setCue c v).descriptorFree = s.descriptorFree := rfl
@[simp] theorem State.setCue_fetches (c : Nat) (v : Cue) : (s.setCue c v).fetches = s.fetches := rfl
@[simp] theorem State.setCue_draws (c : Nat) (v : Cue) : (s.setCue c v).draws = s.draws := rfl
@[simp] theorem State.setCue_cues (c : Nat) (v : Cue) : (s.setCue c v).cues = s.cues.set Cue.por c v := rfl
@[simp] theorem State.setCue_actions (c : Nat) (v : Cue) : (s.setCue c v).actions = s.actions := rfl
@[simp] theorem State.setCue_actionFree (c : Nat) (v : Cue) : (s.setCue c v).actionFree = s.actionFree := rfl
@[simp] theorem State.setCue_lists (c : Nat) (v : Cue) : (s.setCue c v).lists = s.lists := rfl
@[simp] theorem State.setCue_reply (c : Nat) (v : Cue) : (s.setCue c v).reply = s.reply := rfl
@[simp] theorem State.setCue_outgoing (c : Nat) (v : Cue) : (s.setCue c v).outgoing = s.outgoing := rfl
@[simp] theorem State.setCue_transaction (c : Nat) (v : Cue) : (s.setCue c v).transaction = s.transaction := rfl
@[simp] theorem State.setCue_events (c : Nat) (v : Cue) : (s.setCue c v).events = s.events := rfl
@[simp] theorem State.setCue_mask (c : Nat) (v : Cue) : (s.setCue c v).mask = s.mask := rfl

/-! ### setAction -/

@[simp] theorem State.setAction_pending (a : Nat) (v : Action) : (s.setAction a v).pending = s.pending := rfl
@[simp] theorem State.setAction_now (a : Nat) (v : Action) : (s.setAction a v).now = s.now := rfl
@[simp] theorem State.setAction_device (a : Nat) (v : Action) : (s.setAction a v).device = s.device := rfl
@[simp] theorem State.setAction_softClear (a : Nat) (v : Action) :
    (s.setAction a v).softClear = s.softClear := rfl
@[simp] theorem State.setAction_work (a : Nat) (v : Action) : (s.setAction a v).work = s.work := rfl
@[simp] theorem State.setAction_timer (a : Nat) (v : Action) : (s.setAction a v).timer = s.timer := rfl
@[simp] theorem State.setAction_points (a : Nat) (v : Action) : (s.setAction a v).points = s.points := rfl
@[simp] theorem State.setAction_occupancy (a : Nat) (v : Action) :
    (s.setAction a v).occupancy = s.occupancy := rfl
@[simp] theorem State.setAction_groups (a : Nat) (v : Action) : (s.setAction a v).groups = s.groups := rfl
@[simp] theorem State.setAction_curves (a : Nat) (v : Action) : (s.setAction a v).curves = s.curves := rfl
@[simp] theorem State.setAction_results (a : Nat) (v : Action) : (s.setAction a v).results = s.results := rfl
@[simp] theorem State.setAction_renderFrame (a : Nat) (v : Action) :
    (s.setAction a v).renderFrame = s.renderFrame := rfl
@[simp] theorem State.setAction_sources (a : Nat) (v : Action) : (s.setAction a v).sources = s.sources := rfl
@[simp] theorem State.setAction_interval (a : Nat) (v : Action) : (s.setAction a v).interval = s.interval := rfl
@[simp] theorem State.setAction_slots (a : Nat) (v : Action) : (s.setAction a v).slots = s.slots := rfl
@[simp] theorem State.setAction_names (a : Nat) (v : Action) : (s.setAction a v).names = s.names := rfl
@[simp] theorem State.setAction_pool (a : Nat) (v : Action) : (s.setAction a v).pool = s.pool := rfl
@[simp] theorem State.setAction_poolFree (a : Nat) (v : Action) : (s.setAction a v).poolFree = s.poolFree := rfl
@[simp] theorem State.setAction_sequence (a : Nat) (v : Action) : (s.setAction a v).sequence = s.sequence := rfl
@[simp] theorem State.setAction_queue (a : Nat) (v : Action) : (s.setAction a v).queue = s.queue := rfl
@[simp] theorem State.setAction_arrival (a : Nat) (v : Action) : (s.setAction a v).arrival = s.arrival := rfl
@[simp] theorem State.setAction_lastFailure (a : Nat) (v : Action) :
    (s.setAction a v).lastFailure = s.lastFailure := rfl
@[simp] theorem State.setAction_forces (a : Nat) (v : Action) : (s.setAction a v).forces = s.forces := rfl
@[simp] theorem State.setAction_freezes (a : Nat) (v : Action) : (s.setAction a v).freezes = s.freezes := rfl
@[simp] theorem State.setAction_masters (a : Nat) (v : Action) : (s.setAction a v).masters = s.masters := rfl
@[simp] theorem State.setAction_workLight (a : Nat) (v : Action) :
    (s.setAction a v).workLight = s.workLight := rfl
@[simp] theorem State.setAction_wltPin (a : Nat) (v : Action) : (s.setAction a v).wltPin = s.wltPin := rfl
@[simp] theorem State.setAction_wltSample (a : Nat) (v : Action) :
    (s.setAction a v).wltSample = s.wltSample := rfl
@[simp] theorem State.setAction_wltRendered (a : Nat) (v : Action) :
    (s.setAction a v).wltRendered = s.wltRendered := rfl
@[simp] theorem State.setAction_lines (a : Nat) (v : Action) : (s.setAction a v).lines = s.lines := rfl
@[simp] theorem State.setAction_inputs (a : Nat) (v : Action) : (s.setAction a v).inputs = s.inputs := rfl
@[simp] theorem State.setAction_tiles (a : Nat) (v : Action) : (s.setAction a v).tiles = s.tiles := rfl
@[simp] theorem State.setAction_links (a : Nat) (v : Action) : (s.setAction a v).links = s.links := rfl
@[simp] theorem State.setAction_plates (a : Nat) (v : Action) : (s.setAction a v).plates = s.plates := rfl
@[simp] theorem State.setAction_descriptors (a : Nat) (v : Action) :
    (s.setAction a v).descriptors = s.descriptors := rfl
@[simp] theorem State.setAction_descriptorFree (a : Nat) (v : Action) :
    (s.setAction a v).descriptorFree = s.descriptorFree := rfl
@[simp] theorem State.setAction_fetches (a : Nat) (v : Action) : (s.setAction a v).fetches = s.fetches := rfl
@[simp] theorem State.setAction_draws (a : Nat) (v : Action) : (s.setAction a v).draws = s.draws := rfl
@[simp] theorem State.setAction_cues (a : Nat) (v : Action) : (s.setAction a v).cues = s.cues := rfl
@[simp] theorem State.setAction_actions (a : Nat) (v : Action) :
    (s.setAction a v).actions = s.actions.set ActionRecord.por a v := rfl
@[simp] theorem State.setAction_actionFree (a : Nat) (v : Action) :
    (s.setAction a v).actionFree = s.actionFree := rfl
@[simp] theorem State.setAction_lists (a : Nat) (v : Action) : (s.setAction a v).lists = s.lists := rfl
@[simp] theorem State.setAction_reply (a : Nat) (v : Action) : (s.setAction a v).reply = s.reply := rfl
@[simp] theorem State.setAction_outgoing (a : Nat) (v : Action) : (s.setAction a v).outgoing = s.outgoing := rfl
@[simp] theorem State.setAction_transaction (a : Nat) (v : Action) :
    (s.setAction a v).transaction = s.transaction := rfl
@[simp] theorem State.setAction_events (a : Nat) (v : Action) : (s.setAction a v).events = s.events := rfl
@[simp] theorem State.setAction_mask (a : Nat) (v : Action) : (s.setAction a v).mask = s.mask := rfl

/-! ### setList -/

@[simp] theorem State.setList_pending (l : Nat) (v : CueList) : (s.setList l v).pending = s.pending := rfl
@[simp] theorem State.setList_now (l : Nat) (v : CueList) : (s.setList l v).now = s.now := rfl
@[simp] theorem State.setList_device (l : Nat) (v : CueList) : (s.setList l v).device = s.device := rfl
@[simp] theorem State.setList_softClear (l : Nat) (v : CueList) : (s.setList l v).softClear = s.softClear := rfl
@[simp] theorem State.setList_work (l : Nat) (v : CueList) : (s.setList l v).work = s.work := rfl
@[simp] theorem State.setList_timer (l : Nat) (v : CueList) : (s.setList l v).timer = s.timer := rfl
@[simp] theorem State.setList_points (l : Nat) (v : CueList) : (s.setList l v).points = s.points := rfl
@[simp] theorem State.setList_occupancy (l : Nat) (v : CueList) : (s.setList l v).occupancy = s.occupancy := rfl
@[simp] theorem State.setList_groups (l : Nat) (v : CueList) : (s.setList l v).groups = s.groups := rfl
@[simp] theorem State.setList_curves (l : Nat) (v : CueList) : (s.setList l v).curves = s.curves := rfl
@[simp] theorem State.setList_results (l : Nat) (v : CueList) : (s.setList l v).results = s.results := rfl
@[simp] theorem State.setList_renderFrame (l : Nat) (v : CueList) : (s.setList l v).renderFrame = s.renderFrame := rfl
@[simp] theorem State.setList_sources (l : Nat) (v : CueList) : (s.setList l v).sources = s.sources := rfl
@[simp] theorem State.setList_interval (l : Nat) (v : CueList) : (s.setList l v).interval = s.interval := rfl
@[simp] theorem State.setList_slots (l : Nat) (v : CueList) : (s.setList l v).slots = s.slots := rfl
@[simp] theorem State.setList_names (l : Nat) (v : CueList) : (s.setList l v).names = s.names := rfl
@[simp] theorem State.setList_pool (l : Nat) (v : CueList) : (s.setList l v).pool = s.pool := rfl
@[simp] theorem State.setList_poolFree (l : Nat) (v : CueList) : (s.setList l v).poolFree = s.poolFree := rfl
@[simp] theorem State.setList_sequence (l : Nat) (v : CueList) : (s.setList l v).sequence = s.sequence := rfl
@[simp] theorem State.setList_queue (l : Nat) (v : CueList) : (s.setList l v).queue = s.queue := rfl
@[simp] theorem State.setList_arrival (l : Nat) (v : CueList) : (s.setList l v).arrival = s.arrival := rfl
@[simp] theorem State.setList_lastFailure (l : Nat) (v : CueList) : (s.setList l v).lastFailure = s.lastFailure := rfl
@[simp] theorem State.setList_forces (l : Nat) (v : CueList) : (s.setList l v).forces = s.forces := rfl
@[simp] theorem State.setList_freezes (l : Nat) (v : CueList) : (s.setList l v).freezes = s.freezes := rfl
@[simp] theorem State.setList_masters (l : Nat) (v : CueList) : (s.setList l v).masters = s.masters := rfl
@[simp] theorem State.setList_workLight (l : Nat) (v : CueList) : (s.setList l v).workLight = s.workLight := rfl
@[simp] theorem State.setList_wltPin (l : Nat) (v : CueList) : (s.setList l v).wltPin = s.wltPin := rfl
@[simp] theorem State.setList_wltSample (l : Nat) (v : CueList) : (s.setList l v).wltSample = s.wltSample := rfl
@[simp] theorem State.setList_wltRendered (l : Nat) (v : CueList) : (s.setList l v).wltRendered = s.wltRendered := rfl
@[simp] theorem State.setList_lines (l : Nat) (v : CueList) : (s.setList l v).lines = s.lines := rfl
@[simp] theorem State.setList_inputs (l : Nat) (v : CueList) : (s.setList l v).inputs = s.inputs := rfl
@[simp] theorem State.setList_tiles (l : Nat) (v : CueList) : (s.setList l v).tiles = s.tiles := rfl
@[simp] theorem State.setList_links (l : Nat) (v : CueList) : (s.setList l v).links = s.links := rfl
@[simp] theorem State.setList_plates (l : Nat) (v : CueList) : (s.setList l v).plates = s.plates := rfl
@[simp] theorem State.setList_descriptors (l : Nat) (v : CueList) : (s.setList l v).descriptors = s.descriptors := rfl
@[simp] theorem State.setList_descriptorFree (l : Nat) (v : CueList) :
    (s.setList l v).descriptorFree = s.descriptorFree := rfl
@[simp] theorem State.setList_fetches (l : Nat) (v : CueList) : (s.setList l v).fetches = s.fetches := rfl
@[simp] theorem State.setList_draws (l : Nat) (v : CueList) : (s.setList l v).draws = s.draws := rfl
@[simp] theorem State.setList_cues (l : Nat) (v : CueList) : (s.setList l v).cues = s.cues := rfl
@[simp] theorem State.setList_actions (l : Nat) (v : CueList) : (s.setList l v).actions = s.actions := rfl
@[simp] theorem State.setList_actionFree (l : Nat) (v : CueList) : (s.setList l v).actionFree = s.actionFree := rfl
@[simp] theorem State.setList_lists (l : Nat) (v : CueList) : (s.setList l v).lists = s.lists.set CueList.por l v := rfl
@[simp] theorem State.setList_reply (l : Nat) (v : CueList) : (s.setList l v).reply = s.reply := rfl
@[simp] theorem State.setList_outgoing (l : Nat) (v : CueList) : (s.setList l v).outgoing = s.outgoing := rfl
@[simp] theorem State.setList_transaction (l : Nat) (v : CueList) : (s.setList l v).transaction = s.transaction := rfl
@[simp] theorem State.setList_events (l : Nat) (v : CueList) : (s.setList l v).events = s.events := rfl
@[simp] theorem State.setList_mask (l : Nat) (v : CueList) : (s.setList l v).mask = s.mask := rfl

/-! ### setNamed -/

@[simp] theorem State.setNamed_pending (owner name : Nat) (v : Option Nat) :
    (s.setNamed owner name v).pending = s.pending := rfl
@[simp] theorem State.setNamed_now (owner name : Nat) (v : Option Nat) : (s.setNamed owner name v).now = s.now := rfl
@[simp] theorem State.setNamed_device (owner name : Nat) (v : Option Nat) :
    (s.setNamed owner name v).device = s.device := rfl
@[simp] theorem State.setNamed_softClear (owner name : Nat) (v : Option Nat) :
    (s.setNamed owner name v).softClear = s.softClear := rfl
@[simp] theorem State.setNamed_work (owner name : Nat) (v : Option Nat) : (s.setNamed owner name v).work = s.work := rfl
@[simp] theorem State.setNamed_timer (owner name : Nat) (v : Option Nat) :
    (s.setNamed owner name v).timer = s.timer := rfl
@[simp] theorem State.setNamed_points (owner name : Nat) (v : Option Nat) :
    (s.setNamed owner name v).points = s.points := rfl
@[simp] theorem State.setNamed_occupancy (owner name : Nat) (v : Option Nat) :
    (s.setNamed owner name v).occupancy = s.occupancy := rfl
@[simp] theorem State.setNamed_groups (owner name : Nat) (v : Option Nat) :
    (s.setNamed owner name v).groups = s.groups := rfl
@[simp] theorem State.setNamed_curves (owner name : Nat) (v : Option Nat) :
    (s.setNamed owner name v).curves = s.curves := rfl
@[simp] theorem State.setNamed_results (owner name : Nat) (v : Option Nat) :
    (s.setNamed owner name v).results = s.results := rfl
@[simp] theorem State.setNamed_renderFrame (owner name : Nat) (v : Option Nat) :
    (s.setNamed owner name v).renderFrame = s.renderFrame := rfl
@[simp] theorem State.setNamed_sources (owner name : Nat) (v : Option Nat) :
    (s.setNamed owner name v).sources = s.sources := rfl
@[simp] theorem State.setNamed_interval (owner name : Nat) (v : Option Nat) :
    (s.setNamed owner name v).interval = s.interval := rfl
@[simp] theorem State.setNamed_slots (owner name : Nat) (v : Option Nat) :
    (s.setNamed owner name v).slots = s.slots := rfl
@[simp] theorem State.setNamed_names (owner name : Nat) (v : Option Nat) :
    (s.setNamed owner name v).names = s.names.set Name.por (owner * 4096 + name) v := rfl
@[simp] theorem State.setNamed_pool (owner name : Nat) (v : Option Nat) : (s.setNamed owner name v).pool = s.pool := rfl
@[simp] theorem State.setNamed_poolFree (owner name : Nat) (v : Option Nat) :
    (s.setNamed owner name v).poolFree = s.poolFree := rfl
@[simp] theorem State.setNamed_sequence (owner name : Nat) (v : Option Nat) :
    (s.setNamed owner name v).sequence = s.sequence := rfl
@[simp] theorem State.setNamed_queue (owner name : Nat) (v : Option Nat) :
    (s.setNamed owner name v).queue = s.queue := rfl
@[simp] theorem State.setNamed_arrival (owner name : Nat) (v : Option Nat) :
    (s.setNamed owner name v).arrival = s.arrival := rfl
@[simp] theorem State.setNamed_lastFailure (owner name : Nat) (v : Option Nat) :
    (s.setNamed owner name v).lastFailure = s.lastFailure := rfl
@[simp] theorem State.setNamed_forces (owner name : Nat) (v : Option Nat) :
    (s.setNamed owner name v).forces = s.forces := rfl
@[simp] theorem State.setNamed_freezes (owner name : Nat) (v : Option Nat) :
    (s.setNamed owner name v).freezes = s.freezes := rfl
@[simp] theorem State.setNamed_masters (owner name : Nat) (v : Option Nat) :
    (s.setNamed owner name v).masters = s.masters := rfl
@[simp] theorem State.setNamed_workLight (owner name : Nat) (v : Option Nat) :
    (s.setNamed owner name v).workLight = s.workLight := rfl
@[simp] theorem State.setNamed_wltPin (owner name : Nat) (v : Option Nat) :
    (s.setNamed owner name v).wltPin = s.wltPin := rfl
@[simp] theorem State.setNamed_wltSample (owner name : Nat) (v : Option Nat) :
    (s.setNamed owner name v).wltSample = s.wltSample := rfl
@[simp] theorem State.setNamed_wltRendered (owner name : Nat) (v : Option Nat) :
    (s.setNamed owner name v).wltRendered = s.wltRendered := rfl
@[simp] theorem State.setNamed_lines (owner name : Nat) (v : Option Nat) :
    (s.setNamed owner name v).lines = s.lines := rfl
@[simp] theorem State.setNamed_inputs (owner name : Nat) (v : Option Nat) :
    (s.setNamed owner name v).inputs = s.inputs := rfl
@[simp] theorem State.setNamed_tiles (owner name : Nat) (v : Option Nat) :
    (s.setNamed owner name v).tiles = s.tiles := rfl
@[simp] theorem State.setNamed_links (owner name : Nat) (v : Option Nat) :
    (s.setNamed owner name v).links = s.links := rfl
@[simp] theorem State.setNamed_plates (owner name : Nat) (v : Option Nat) :
    (s.setNamed owner name v).plates = s.plates := rfl
@[simp] theorem State.setNamed_descriptors (owner name : Nat) (v : Option Nat) :
    (s.setNamed owner name v).descriptors = s.descriptors := rfl
@[simp] theorem State.setNamed_descriptorFree (owner name : Nat) (v : Option Nat) :
    (s.setNamed owner name v).descriptorFree = s.descriptorFree := rfl
@[simp] theorem State.setNamed_fetches (owner name : Nat) (v : Option Nat) :
    (s.setNamed owner name v).fetches = s.fetches := rfl
@[simp] theorem State.setNamed_draws (owner name : Nat) (v : Option Nat) :
    (s.setNamed owner name v).draws = s.draws := rfl
@[simp] theorem State.setNamed_cues (owner name : Nat) (v : Option Nat) : (s.setNamed owner name v).cues = s.cues := rfl
@[simp] theorem State.setNamed_actions (owner name : Nat) (v : Option Nat) :
    (s.setNamed owner name v).actions = s.actions := rfl
@[simp] theorem State.setNamed_actionFree (owner name : Nat) (v : Option Nat) :
    (s.setNamed owner name v).actionFree = s.actionFree := rfl
@[simp] theorem State.setNamed_lists (owner name : Nat) (v : Option Nat) :
    (s.setNamed owner name v).lists = s.lists := rfl
@[simp] theorem State.setNamed_reply (owner name : Nat) (v : Option Nat) :
    (s.setNamed owner name v).reply = s.reply := rfl
@[simp] theorem State.setNamed_outgoing (owner name : Nat) (v : Option Nat) :
    (s.setNamed owner name v).outgoing = s.outgoing := rfl
@[simp] theorem State.setNamed_transaction (owner name : Nat) (v : Option Nat) :
    (s.setNamed owner name v).transaction = s.transaction := rfl
@[simp] theorem State.setNamed_events (owner name : Nat) (v : Option Nat) :
    (s.setNamed owner name v).events = s.events := rfl
@[simp] theorem State.setNamed_mask (owner name : Nat) (v : Option Nat) : (s.setNamed owner name v).mask = s.mask := rfl

/-! ### setWork -/

@[simp] theorem State.setWork_pending (v : Work) : (s.setWork v).pending = s.pending := rfl
@[simp] theorem State.setWork_now (v : Work) : (s.setWork v).now = s.now := rfl
@[simp] theorem State.setWork_device (v : Work) : (s.setWork v).device = s.device := rfl
@[simp] theorem State.setWork_softClear (v : Work) : (s.setWork v).softClear = s.softClear := rfl
@[simp] theorem State.setWork_work (v : Work) : (s.setWork v).work = v := rfl
@[simp] theorem State.setWork_timer (v : Work) : (s.setWork v).timer = s.timer := rfl
@[simp] theorem State.setWork_points (v : Work) : (s.setWork v).points = s.points := rfl
@[simp] theorem State.setWork_occupancy (v : Work) : (s.setWork v).occupancy = s.occupancy := rfl
@[simp] theorem State.setWork_groups (v : Work) : (s.setWork v).groups = s.groups := rfl
@[simp] theorem State.setWork_curves (v : Work) : (s.setWork v).curves = s.curves := rfl
@[simp] theorem State.setWork_results (v : Work) : (s.setWork v).results = s.results := rfl
@[simp] theorem State.setWork_renderFrame (v : Work) : (s.setWork v).renderFrame = s.renderFrame := rfl
@[simp] theorem State.setWork_sources (v : Work) : (s.setWork v).sources = s.sources := rfl
@[simp] theorem State.setWork_interval (v : Work) : (s.setWork v).interval = s.interval := rfl
@[simp] theorem State.setWork_slots (v : Work) : (s.setWork v).slots = s.slots := rfl
@[simp] theorem State.setWork_names (v : Work) : (s.setWork v).names = s.names := rfl
@[simp] theorem State.setWork_pool (v : Work) : (s.setWork v).pool = s.pool := rfl
@[simp] theorem State.setWork_poolFree (v : Work) : (s.setWork v).poolFree = s.poolFree := rfl
@[simp] theorem State.setWork_sequence (v : Work) : (s.setWork v).sequence = s.sequence := rfl
@[simp] theorem State.setWork_queue (v : Work) : (s.setWork v).queue = s.queue := rfl
@[simp] theorem State.setWork_arrival (v : Work) : (s.setWork v).arrival = s.arrival := rfl
@[simp] theorem State.setWork_lastFailure (v : Work) : (s.setWork v).lastFailure = s.lastFailure := rfl
@[simp] theorem State.setWork_forces (v : Work) : (s.setWork v).forces = s.forces := rfl
@[simp] theorem State.setWork_freezes (v : Work) : (s.setWork v).freezes = s.freezes := rfl
@[simp] theorem State.setWork_masters (v : Work) : (s.setWork v).masters = s.masters := rfl
@[simp] theorem State.setWork_workLight (v : Work) : (s.setWork v).workLight = s.workLight := rfl
@[simp] theorem State.setWork_wltPin (v : Work) : (s.setWork v).wltPin = s.wltPin := rfl
@[simp] theorem State.setWork_wltSample (v : Work) : (s.setWork v).wltSample = s.wltSample := rfl
@[simp] theorem State.setWork_wltRendered (v : Work) : (s.setWork v).wltRendered = s.wltRendered := rfl
@[simp] theorem State.setWork_lines (v : Work) : (s.setWork v).lines = s.lines := rfl
@[simp] theorem State.setWork_inputs (v : Work) : (s.setWork v).inputs = s.inputs := rfl
@[simp] theorem State.setWork_tiles (v : Work) : (s.setWork v).tiles = s.tiles := rfl
@[simp] theorem State.setWork_links (v : Work) : (s.setWork v).links = s.links := rfl
@[simp] theorem State.setWork_plates (v : Work) : (s.setWork v).plates = s.plates := rfl
@[simp] theorem State.setWork_descriptors (v : Work) : (s.setWork v).descriptors = s.descriptors := rfl
@[simp] theorem State.setWork_descriptorFree (v : Work) : (s.setWork v).descriptorFree = s.descriptorFree := rfl
@[simp] theorem State.setWork_fetches (v : Work) : (s.setWork v).fetches = s.fetches := rfl
@[simp] theorem State.setWork_draws (v : Work) : (s.setWork v).draws = s.draws := rfl
@[simp] theorem State.setWork_cues (v : Work) : (s.setWork v).cues = s.cues := rfl
@[simp] theorem State.setWork_actions (v : Work) : (s.setWork v).actions = s.actions := rfl
@[simp] theorem State.setWork_actionFree (v : Work) : (s.setWork v).actionFree = s.actionFree := rfl
@[simp] theorem State.setWork_lists (v : Work) : (s.setWork v).lists = s.lists := rfl
@[simp] theorem State.setWork_reply (v : Work) : (s.setWork v).reply = s.reply := rfl
@[simp] theorem State.setWork_outgoing (v : Work) : (s.setWork v).outgoing = s.outgoing := rfl
@[simp] theorem State.setWork_transaction (v : Work) : (s.setWork v).transaction = s.transaction := rfl
@[simp] theorem State.setWork_events (v : Work) : (s.setWork v).events = s.events := rfl
@[simp] theorem State.setWork_mask (v : Work) : (s.setWork v).mask = s.mask := rfl

/-! ### setTimer -/

@[simp] theorem State.setTimer_pending (v : Timer) : (s.setTimer v).pending = s.pending := rfl
@[simp] theorem State.setTimer_now (v : Timer) : (s.setTimer v).now = s.now := rfl
@[simp] theorem State.setTimer_device (v : Timer) : (s.setTimer v).device = s.device := rfl
@[simp] theorem State.setTimer_softClear (v : Timer) : (s.setTimer v).softClear = s.softClear := rfl
@[simp] theorem State.setTimer_work (v : Timer) : (s.setTimer v).work = s.work := rfl
@[simp] theorem State.setTimer_timer (v : Timer) : (s.setTimer v).timer = v := rfl
@[simp] theorem State.setTimer_points (v : Timer) : (s.setTimer v).points = s.points := rfl
@[simp] theorem State.setTimer_occupancy (v : Timer) : (s.setTimer v).occupancy = s.occupancy := rfl
@[simp] theorem State.setTimer_groups (v : Timer) : (s.setTimer v).groups = s.groups := rfl
@[simp] theorem State.setTimer_curves (v : Timer) : (s.setTimer v).curves = s.curves := rfl
@[simp] theorem State.setTimer_results (v : Timer) : (s.setTimer v).results = s.results := rfl
@[simp] theorem State.setTimer_renderFrame (v : Timer) : (s.setTimer v).renderFrame = s.renderFrame := rfl
@[simp] theorem State.setTimer_sources (v : Timer) : (s.setTimer v).sources = s.sources := rfl
@[simp] theorem State.setTimer_interval (v : Timer) : (s.setTimer v).interval = s.interval := rfl
@[simp] theorem State.setTimer_slots (v : Timer) : (s.setTimer v).slots = s.slots := rfl
@[simp] theorem State.setTimer_names (v : Timer) : (s.setTimer v).names = s.names := rfl
@[simp] theorem State.setTimer_pool (v : Timer) : (s.setTimer v).pool = s.pool := rfl
@[simp] theorem State.setTimer_poolFree (v : Timer) : (s.setTimer v).poolFree = s.poolFree := rfl
@[simp] theorem State.setTimer_sequence (v : Timer) : (s.setTimer v).sequence = s.sequence := rfl
@[simp] theorem State.setTimer_queue (v : Timer) : (s.setTimer v).queue = s.queue := rfl
@[simp] theorem State.setTimer_arrival (v : Timer) : (s.setTimer v).arrival = s.arrival := rfl
@[simp] theorem State.setTimer_lastFailure (v : Timer) : (s.setTimer v).lastFailure = s.lastFailure := rfl
@[simp] theorem State.setTimer_forces (v : Timer) : (s.setTimer v).forces = s.forces := rfl
@[simp] theorem State.setTimer_freezes (v : Timer) : (s.setTimer v).freezes = s.freezes := rfl
@[simp] theorem State.setTimer_masters (v : Timer) : (s.setTimer v).masters = s.masters := rfl
@[simp] theorem State.setTimer_workLight (v : Timer) : (s.setTimer v).workLight = s.workLight := rfl
@[simp] theorem State.setTimer_wltPin (v : Timer) : (s.setTimer v).wltPin = s.wltPin := rfl
@[simp] theorem State.setTimer_wltSample (v : Timer) : (s.setTimer v).wltSample = s.wltSample := rfl
@[simp] theorem State.setTimer_wltRendered (v : Timer) : (s.setTimer v).wltRendered = s.wltRendered := rfl
@[simp] theorem State.setTimer_lines (v : Timer) : (s.setTimer v).lines = s.lines := rfl
@[simp] theorem State.setTimer_inputs (v : Timer) : (s.setTimer v).inputs = s.inputs := rfl
@[simp] theorem State.setTimer_tiles (v : Timer) : (s.setTimer v).tiles = s.tiles := rfl
@[simp] theorem State.setTimer_links (v : Timer) : (s.setTimer v).links = s.links := rfl
@[simp] theorem State.setTimer_plates (v : Timer) : (s.setTimer v).plates = s.plates := rfl
@[simp] theorem State.setTimer_descriptors (v : Timer) : (s.setTimer v).descriptors = s.descriptors := rfl
@[simp] theorem State.setTimer_descriptorFree (v : Timer) : (s.setTimer v).descriptorFree = s.descriptorFree := rfl
@[simp] theorem State.setTimer_fetches (v : Timer) : (s.setTimer v).fetches = s.fetches := rfl
@[simp] theorem State.setTimer_draws (v : Timer) : (s.setTimer v).draws = s.draws := rfl
@[simp] theorem State.setTimer_cues (v : Timer) : (s.setTimer v).cues = s.cues := rfl
@[simp] theorem State.setTimer_actions (v : Timer) : (s.setTimer v).actions = s.actions := rfl
@[simp] theorem State.setTimer_actionFree (v : Timer) : (s.setTimer v).actionFree = s.actionFree := rfl
@[simp] theorem State.setTimer_lists (v : Timer) : (s.setTimer v).lists = s.lists := rfl
@[simp] theorem State.setTimer_reply (v : Timer) : (s.setTimer v).reply = s.reply := rfl
@[simp] theorem State.setTimer_outgoing (v : Timer) : (s.setTimer v).outgoing = s.outgoing := rfl
@[simp] theorem State.setTimer_transaction (v : Timer) : (s.setTimer v).transaction = s.transaction := rfl
@[simp] theorem State.setTimer_events (v : Timer) : (s.setTimer v).events = s.events := rfl
@[simp] theorem State.setTimer_mask (v : Timer) : (s.setTimer v).mask = s.mask := rfl

/-! ### raise -/

@[simp] theorem State.raise_pending (k : EventKind) : (s.raise k).pending = s.pending := rfl
@[simp] theorem State.raise_now (k : EventKind) : (s.raise k).now = s.now := rfl
@[simp] theorem State.raise_device (k : EventKind) : (s.raise k).device = s.device := rfl
@[simp] theorem State.raise_softClear (k : EventKind) : (s.raise k).softClear = s.softClear := rfl
@[simp] theorem State.raise_work (k : EventKind) : (s.raise k).work = s.work := rfl
@[simp] theorem State.raise_timer (k : EventKind) : (s.raise k).timer = s.timer := rfl
@[simp] theorem State.raise_points (k : EventKind) : (s.raise k).points = s.points := rfl
@[simp] theorem State.raise_occupancy (k : EventKind) : (s.raise k).occupancy = s.occupancy := rfl
@[simp] theorem State.raise_groups (k : EventKind) : (s.raise k).groups = s.groups := rfl
@[simp] theorem State.raise_curves (k : EventKind) : (s.raise k).curves = s.curves := rfl
@[simp] theorem State.raise_results (k : EventKind) : (s.raise k).results = s.results := rfl
@[simp] theorem State.raise_renderFrame (k : EventKind) : (s.raise k).renderFrame = s.renderFrame := rfl
@[simp] theorem State.raise_sources (k : EventKind) : (s.raise k).sources = s.sources := rfl
@[simp] theorem State.raise_interval (k : EventKind) : (s.raise k).interval = s.interval := rfl
@[simp] theorem State.raise_slots (k : EventKind) : (s.raise k).slots = s.slots := rfl
@[simp] theorem State.raise_names (k : EventKind) : (s.raise k).names = s.names := rfl
@[simp] theorem State.raise_pool (k : EventKind) : (s.raise k).pool = s.pool := rfl
@[simp] theorem State.raise_poolFree (k : EventKind) : (s.raise k).poolFree = s.poolFree := rfl
@[simp] theorem State.raise_sequence (k : EventKind) : (s.raise k).sequence = s.sequence := rfl
@[simp] theorem State.raise_queue (k : EventKind) : (s.raise k).queue = s.queue := rfl
@[simp] theorem State.raise_arrival (k : EventKind) : (s.raise k).arrival = s.arrival := rfl
@[simp] theorem State.raise_lastFailure (k : EventKind) : (s.raise k).lastFailure = s.lastFailure := rfl
@[simp] theorem State.raise_forces (k : EventKind) : (s.raise k).forces = s.forces := rfl
@[simp] theorem State.raise_freezes (k : EventKind) : (s.raise k).freezes = s.freezes := rfl
@[simp] theorem State.raise_masters (k : EventKind) : (s.raise k).masters = s.masters := rfl
@[simp] theorem State.raise_workLight (k : EventKind) : (s.raise k).workLight = s.workLight := rfl
@[simp] theorem State.raise_wltPin (k : EventKind) : (s.raise k).wltPin = s.wltPin := rfl
@[simp] theorem State.raise_wltSample (k : EventKind) : (s.raise k).wltSample = s.wltSample := rfl
@[simp] theorem State.raise_wltRendered (k : EventKind) : (s.raise k).wltRendered = s.wltRendered := rfl
@[simp] theorem State.raise_lines (k : EventKind) : (s.raise k).lines = s.lines := rfl
@[simp] theorem State.raise_inputs (k : EventKind) : (s.raise k).inputs = s.inputs := rfl
@[simp] theorem State.raise_tiles (k : EventKind) : (s.raise k).tiles = s.tiles := rfl
@[simp] theorem State.raise_links (k : EventKind) : (s.raise k).links = s.links := rfl
@[simp] theorem State.raise_plates (k : EventKind) : (s.raise k).plates = s.plates := rfl
@[simp] theorem State.raise_descriptors (k : EventKind) : (s.raise k).descriptors = s.descriptors := rfl
@[simp] theorem State.raise_descriptorFree (k : EventKind) : (s.raise k).descriptorFree = s.descriptorFree := rfl
@[simp] theorem State.raise_fetches (k : EventKind) : (s.raise k).fetches = s.fetches := rfl
@[simp] theorem State.raise_draws (k : EventKind) : (s.raise k).draws = s.draws := rfl
@[simp] theorem State.raise_cues (k : EventKind) : (s.raise k).cues = s.cues := rfl
@[simp] theorem State.raise_actions (k : EventKind) : (s.raise k).actions = s.actions := rfl
@[simp] theorem State.raise_actionFree (k : EventKind) : (s.raise k).actionFree = s.actionFree := rfl
@[simp] theorem State.raise_lists (k : EventKind) : (s.raise k).lists = s.lists := rfl
@[simp] theorem State.raise_reply (k : EventKind) : (s.raise k).reply = s.reply := rfl
@[simp] theorem State.raise_outgoing (k : EventKind) : (s.raise k).outgoing = s.outgoing := rfl
@[simp] theorem State.raise_transaction (k : EventKind) : (s.raise k).transaction = s.transaction := rfl
@[simp] theorem State.raise_events (k : EventKind) :
    (s.raise k).events = s.events.set EventCell.por k.number ⟨true, saturate 255 (s.event k.number).count⟩ := rfl
@[simp] theorem State.raise_mask (k : EventKind) : (s.raise k).mask = s.mask := rfl

/-! ### setWord -/

@[simp] theorem State.setWord_pending (chain : List Nat) (w v : Nat) : (s.setWord chain w v).pending = s.pending := rfl
@[simp] theorem State.setWord_now (chain : List Nat) (w v : Nat) : (s.setWord chain w v).now = s.now := rfl
@[simp] theorem State.setWord_device (chain : List Nat) (w v : Nat) : (s.setWord chain w v).device = s.device := rfl
@[simp] theorem State.setWord_softClear (chain : List Nat) (w v : Nat) :
    (s.setWord chain w v).softClear = s.softClear := rfl
@[simp] theorem State.setWord_work (chain : List Nat) (w v : Nat) : (s.setWord chain w v).work = s.work := rfl
@[simp] theorem State.setWord_timer (chain : List Nat) (w v : Nat) : (s.setWord chain w v).timer = s.timer := rfl
@[simp] theorem State.setWord_points (chain : List Nat) (w v : Nat) : (s.setWord chain w v).points = s.points := rfl
@[simp] theorem State.setWord_occupancy (chain : List Nat) (w v : Nat) :
    (s.setWord chain w v).occupancy = s.occupancy := rfl
@[simp] theorem State.setWord_groups (chain : List Nat) (w v : Nat) : (s.setWord chain w v).groups = s.groups := rfl
@[simp] theorem State.setWord_curves (chain : List Nat) (w v : Nat) : (s.setWord chain w v).curves = s.curves := rfl
@[simp] theorem State.setWord_results (chain : List Nat) (w v : Nat) : (s.setWord chain w v).results = s.results := rfl
@[simp] theorem State.setWord_renderFrame (chain : List Nat) (w v : Nat) :
    (s.setWord chain w v).renderFrame = s.renderFrame := rfl
@[simp] theorem State.setWord_sources (chain : List Nat) (w v : Nat) : (s.setWord chain w v).sources = s.sources := rfl
@[simp] theorem State.setWord_interval (chain : List Nat) (w v : Nat) :
    (s.setWord chain w v).interval = s.interval := rfl
@[simp] theorem State.setWord_slots (chain : List Nat) (w v : Nat) : (s.setWord chain w v).slots = s.slots := rfl
@[simp] theorem State.setWord_names (chain : List Nat) (w v : Nat) : (s.setWord chain w v).names = s.names := rfl
@[simp] theorem State.setWord_pool (chain : List Nat) (w v : Nat) :
    (s.setWord chain w v).pool = s.pool.set PoolWord.por (chainAddress chain w) v := rfl
@[simp] theorem State.setWord_poolFree (chain : List Nat) (w v : Nat) :
    (s.setWord chain w v).poolFree = s.poolFree := rfl
@[simp] theorem State.setWord_sequence (chain : List Nat) (w v : Nat) :
    (s.setWord chain w v).sequence = s.sequence := rfl
@[simp] theorem State.setWord_queue (chain : List Nat) (w v : Nat) : (s.setWord chain w v).queue = s.queue := rfl
@[simp] theorem State.setWord_arrival (chain : List Nat) (w v : Nat) : (s.setWord chain w v).arrival = s.arrival := rfl
@[simp] theorem State.setWord_lastFailure (chain : List Nat) (w v : Nat) :
    (s.setWord chain w v).lastFailure = s.lastFailure := rfl
@[simp] theorem State.setWord_forces (chain : List Nat) (w v : Nat) : (s.setWord chain w v).forces = s.forces := rfl
@[simp] theorem State.setWord_freezes (chain : List Nat) (w v : Nat) : (s.setWord chain w v).freezes = s.freezes := rfl
@[simp] theorem State.setWord_masters (chain : List Nat) (w v : Nat) : (s.setWord chain w v).masters = s.masters := rfl
@[simp] theorem State.setWord_workLight (chain : List Nat) (w v : Nat) :
    (s.setWord chain w v).workLight = s.workLight := rfl
@[simp] theorem State.setWord_wltPin (chain : List Nat) (w v : Nat) : (s.setWord chain w v).wltPin = s.wltPin := rfl
@[simp] theorem State.setWord_wltSample (chain : List Nat) (w v : Nat) :
    (s.setWord chain w v).wltSample = s.wltSample := rfl
@[simp] theorem State.setWord_wltRendered (chain : List Nat) (w v : Nat) :
    (s.setWord chain w v).wltRendered = s.wltRendered := rfl
@[simp] theorem State.setWord_lines (chain : List Nat) (w v : Nat) : (s.setWord chain w v).lines = s.lines := rfl
@[simp] theorem State.setWord_inputs (chain : List Nat) (w v : Nat) : (s.setWord chain w v).inputs = s.inputs := rfl
@[simp] theorem State.setWord_tiles (chain : List Nat) (w v : Nat) : (s.setWord chain w v).tiles = s.tiles := rfl
@[simp] theorem State.setWord_links (chain : List Nat) (w v : Nat) : (s.setWord chain w v).links = s.links := rfl
@[simp] theorem State.setWord_plates (chain : List Nat) (w v : Nat) : (s.setWord chain w v).plates = s.plates := rfl
@[simp] theorem State.setWord_descriptors (chain : List Nat) (w v : Nat) :
    (s.setWord chain w v).descriptors = s.descriptors := rfl
@[simp] theorem State.setWord_descriptorFree (chain : List Nat) (w v : Nat) :
    (s.setWord chain w v).descriptorFree = s.descriptorFree := rfl
@[simp] theorem State.setWord_fetches (chain : List Nat) (w v : Nat) : (s.setWord chain w v).fetches = s.fetches := rfl
@[simp] theorem State.setWord_draws (chain : List Nat) (w v : Nat) : (s.setWord chain w v).draws = s.draws := rfl
@[simp] theorem State.setWord_cues (chain : List Nat) (w v : Nat) : (s.setWord chain w v).cues = s.cues := rfl
@[simp] theorem State.setWord_actions (chain : List Nat) (w v : Nat) : (s.setWord chain w v).actions = s.actions := rfl
@[simp] theorem State.setWord_actionFree (chain : List Nat) (w v : Nat) :
    (s.setWord chain w v).actionFree = s.actionFree := rfl
@[simp] theorem State.setWord_lists (chain : List Nat) (w v : Nat) : (s.setWord chain w v).lists = s.lists := rfl
@[simp] theorem State.setWord_reply (chain : List Nat) (w v : Nat) : (s.setWord chain w v).reply = s.reply := rfl
@[simp] theorem State.setWord_outgoing (chain : List Nat) (w v : Nat) :
    (s.setWord chain w v).outgoing = s.outgoing := rfl
@[simp] theorem State.setWord_transaction (chain : List Nat) (w v : Nat) :
    (s.setWord chain w v).transaction = s.transaction := rfl
@[simp] theorem State.setWord_events (chain : List Nat) (w v : Nat) : (s.setWord chain w v).events = s.events := rfl
@[simp] theorem State.setWord_mask (chain : List Nat) (w v : Nat) : (s.setWord chain w v).mask = s.mask := rfl

/-! ### setRecord -/

@[simp] theorem State.setRecord_pending (k : Nat) (c : Contribution) : (s.setRecord k c).pending = s.pending := rfl
@[simp] theorem State.setRecord_now (k : Nat) (c : Contribution) : (s.setRecord k c).now = s.now := rfl
@[simp] theorem State.setRecord_device (k : Nat) (c : Contribution) : (s.setRecord k c).device = s.device := rfl
@[simp] theorem State.setRecord_softClear (k : Nat) (c : Contribution) :
    (s.setRecord k c).softClear = s.softClear := rfl
@[simp] theorem State.setRecord_work (k : Nat) (c : Contribution) : (s.setRecord k c).work = s.work := rfl
@[simp] theorem State.setRecord_timer (k : Nat) (c : Contribution) : (s.setRecord k c).timer = s.timer := rfl
@[simp] theorem State.setRecord_points (k : Nat) (c : Contribution) : (s.setRecord k c).points = s.points := rfl
@[simp] theorem State.setRecord_occupancy (k : Nat) (c : Contribution) :
    (s.setRecord k c).occupancy = s.occupancy := rfl
@[simp] theorem State.setRecord_groups (k : Nat) (c : Contribution) : (s.setRecord k c).groups = s.groups := rfl
@[simp] theorem State.setRecord_curves (k : Nat) (c : Contribution) : (s.setRecord k c).curves = s.curves := rfl
@[simp] theorem State.setRecord_results (k : Nat) (c : Contribution) : (s.setRecord k c).results = s.results := rfl
@[simp] theorem State.setRecord_renderFrame (k : Nat) (c : Contribution) :
    (s.setRecord k c).renderFrame = s.renderFrame := rfl
@[simp] theorem State.setRecord_sources (k : Nat) (c : Contribution) : (s.setRecord k c).sources = s.sources := rfl
@[simp] theorem State.setRecord_interval (k : Nat) (c : Contribution) : (s.setRecord k c).interval = s.interval := rfl
@[simp] theorem State.setRecord_slots (k : Nat) (c : Contribution) :
    (s.setRecord k c).slots = s.slots.set Slot.por k ⟨(s.slot k).gen, some c⟩ := rfl
@[simp] theorem State.setRecord_names (k : Nat) (c : Contribution) : (s.setRecord k c).names = s.names := rfl
@[simp] theorem State.setRecord_pool (k : Nat) (c : Contribution) : (s.setRecord k c).pool = s.pool := rfl
@[simp] theorem State.setRecord_poolFree (k : Nat) (c : Contribution) : (s.setRecord k c).poolFree = s.poolFree := rfl
@[simp] theorem State.setRecord_sequence (k : Nat) (c : Contribution) : (s.setRecord k c).sequence = s.sequence := rfl
@[simp] theorem State.setRecord_queue (k : Nat) (c : Contribution) : (s.setRecord k c).queue = s.queue := rfl
@[simp] theorem State.setRecord_arrival (k : Nat) (c : Contribution) : (s.setRecord k c).arrival = s.arrival := rfl
@[simp] theorem State.setRecord_lastFailure (k : Nat) (c : Contribution) :
    (s.setRecord k c).lastFailure = s.lastFailure := rfl
@[simp] theorem State.setRecord_forces (k : Nat) (c : Contribution) : (s.setRecord k c).forces = s.forces := rfl
@[simp] theorem State.setRecord_freezes (k : Nat) (c : Contribution) : (s.setRecord k c).freezes = s.freezes := rfl
@[simp] theorem State.setRecord_masters (k : Nat) (c : Contribution) : (s.setRecord k c).masters = s.masters := rfl
@[simp] theorem State.setRecord_workLight (k : Nat) (c : Contribution) :
    (s.setRecord k c).workLight = s.workLight := rfl
@[simp] theorem State.setRecord_wltPin (k : Nat) (c : Contribution) : (s.setRecord k c).wltPin = s.wltPin := rfl
@[simp] theorem State.setRecord_wltSample (k : Nat) (c : Contribution) :
    (s.setRecord k c).wltSample = s.wltSample := rfl
@[simp] theorem State.setRecord_wltRendered (k : Nat) (c : Contribution) :
    (s.setRecord k c).wltRendered = s.wltRendered := rfl
@[simp] theorem State.setRecord_lines (k : Nat) (c : Contribution) : (s.setRecord k c).lines = s.lines := rfl
@[simp] theorem State.setRecord_inputs (k : Nat) (c : Contribution) : (s.setRecord k c).inputs = s.inputs := rfl
@[simp] theorem State.setRecord_tiles (k : Nat) (c : Contribution) : (s.setRecord k c).tiles = s.tiles := rfl
@[simp] theorem State.setRecord_links (k : Nat) (c : Contribution) : (s.setRecord k c).links = s.links := rfl
@[simp] theorem State.setRecord_plates (k : Nat) (c : Contribution) : (s.setRecord k c).plates = s.plates := rfl
@[simp] theorem State.setRecord_descriptors (k : Nat) (c : Contribution) :
    (s.setRecord k c).descriptors = s.descriptors := rfl
@[simp] theorem State.setRecord_descriptorFree (k : Nat) (c : Contribution) :
    (s.setRecord k c).descriptorFree = s.descriptorFree := rfl
@[simp] theorem State.setRecord_fetches (k : Nat) (c : Contribution) : (s.setRecord k c).fetches = s.fetches := rfl
@[simp] theorem State.setRecord_draws (k : Nat) (c : Contribution) : (s.setRecord k c).draws = s.draws := rfl
@[simp] theorem State.setRecord_cues (k : Nat) (c : Contribution) : (s.setRecord k c).cues = s.cues := rfl
@[simp] theorem State.setRecord_actions (k : Nat) (c : Contribution) : (s.setRecord k c).actions = s.actions := rfl
@[simp] theorem State.setRecord_actionFree (k : Nat) (c : Contribution) :
    (s.setRecord k c).actionFree = s.actionFree := rfl
@[simp] theorem State.setRecord_lists (k : Nat) (c : Contribution) : (s.setRecord k c).lists = s.lists := rfl
@[simp] theorem State.setRecord_reply (k : Nat) (c : Contribution) : (s.setRecord k c).reply = s.reply := rfl
@[simp] theorem State.setRecord_outgoing (k : Nat) (c : Contribution) : (s.setRecord k c).outgoing = s.outgoing := rfl
@[simp] theorem State.setRecord_transaction (k : Nat) (c : Contribution) :
    (s.setRecord k c).transaction = s.transaction := rfl
@[simp] theorem State.setRecord_events (k : Nat) (c : Contribution) : (s.setRecord k c).events = s.events := rfl
@[simp] theorem State.setRecord_mask (k : Nat) (c : Contribution) : (s.setRecord k c).mask = s.mask := rfl

/-! ### addLive -/

@[simp] theorem State.addLive_pending (n : Nat) : (s.addLive n).pending = s.pending := rfl
@[simp] theorem State.addLive_now (n : Nat) : (s.addLive n).now = s.now := rfl
@[simp] theorem State.addLive_device (n : Nat) : (s.addLive n).device = s.device := rfl
@[simp] theorem State.addLive_softClear (n : Nat) : (s.addLive n).softClear = s.softClear := rfl
@[simp] theorem State.addLive_work (n : Nat) : (s.addLive n).work = s.work := rfl
@[simp] theorem State.addLive_timer (n : Nat) : (s.addLive n).timer = s.timer := rfl
@[simp] theorem State.addLive_points (n : Nat) : (s.addLive n).points = s.points := rfl
@[simp] theorem State.addLive_occupancy (n : Nat) : (s.addLive n).occupancy = s.occupancy := rfl
@[simp] theorem State.addLive_groups (n : Nat) : (s.addLive n).groups = s.groups := rfl
@[simp] theorem State.addLive_curves (n : Nat) : (s.addLive n).curves = s.curves := rfl
@[simp] theorem State.addLive_results (n : Nat) : (s.addLive n).results = s.results := rfl
@[simp] theorem State.addLive_renderFrame (n : Nat) : (s.addLive n).renderFrame = s.renderFrame := rfl
@[simp] theorem State.addLive_sources (n : Nat) :
    (s.addLive n).sources = s.sources.set Source.por n { s.source n with live := (s.source n).live + 1 } := rfl
@[simp] theorem State.addLive_interval (n : Nat) : (s.addLive n).interval = s.interval := rfl
@[simp] theorem State.addLive_slots (n : Nat) : (s.addLive n).slots = s.slots := rfl
@[simp] theorem State.addLive_names (n : Nat) : (s.addLive n).names = s.names := rfl
@[simp] theorem State.addLive_pool (n : Nat) : (s.addLive n).pool = s.pool := rfl
@[simp] theorem State.addLive_poolFree (n : Nat) : (s.addLive n).poolFree = s.poolFree := rfl
@[simp] theorem State.addLive_sequence (n : Nat) : (s.addLive n).sequence = s.sequence := rfl
@[simp] theorem State.addLive_queue (n : Nat) : (s.addLive n).queue = s.queue := rfl
@[simp] theorem State.addLive_arrival (n : Nat) : (s.addLive n).arrival = s.arrival := rfl
@[simp] theorem State.addLive_lastFailure (n : Nat) : (s.addLive n).lastFailure = s.lastFailure := rfl
@[simp] theorem State.addLive_forces (n : Nat) : (s.addLive n).forces = s.forces := rfl
@[simp] theorem State.addLive_freezes (n : Nat) : (s.addLive n).freezes = s.freezes := rfl
@[simp] theorem State.addLive_masters (n : Nat) : (s.addLive n).masters = s.masters := rfl
@[simp] theorem State.addLive_workLight (n : Nat) : (s.addLive n).workLight = s.workLight := rfl
@[simp] theorem State.addLive_wltPin (n : Nat) : (s.addLive n).wltPin = s.wltPin := rfl
@[simp] theorem State.addLive_wltSample (n : Nat) : (s.addLive n).wltSample = s.wltSample := rfl
@[simp] theorem State.addLive_wltRendered (n : Nat) : (s.addLive n).wltRendered = s.wltRendered := rfl
@[simp] theorem State.addLive_lines (n : Nat) : (s.addLive n).lines = s.lines := rfl
@[simp] theorem State.addLive_inputs (n : Nat) : (s.addLive n).inputs = s.inputs := rfl
@[simp] theorem State.addLive_tiles (n : Nat) : (s.addLive n).tiles = s.tiles := rfl
@[simp] theorem State.addLive_links (n : Nat) : (s.addLive n).links = s.links := rfl
@[simp] theorem State.addLive_plates (n : Nat) : (s.addLive n).plates = s.plates := rfl
@[simp] theorem State.addLive_descriptors (n : Nat) : (s.addLive n).descriptors = s.descriptors := rfl
@[simp] theorem State.addLive_descriptorFree (n : Nat) : (s.addLive n).descriptorFree = s.descriptorFree := rfl
@[simp] theorem State.addLive_fetches (n : Nat) : (s.addLive n).fetches = s.fetches := rfl
@[simp] theorem State.addLive_draws (n : Nat) : (s.addLive n).draws = s.draws := rfl
@[simp] theorem State.addLive_cues (n : Nat) : (s.addLive n).cues = s.cues := rfl
@[simp] theorem State.addLive_actions (n : Nat) : (s.addLive n).actions = s.actions := rfl
@[simp] theorem State.addLive_actionFree (n : Nat) : (s.addLive n).actionFree = s.actionFree := rfl
@[simp] theorem State.addLive_lists (n : Nat) : (s.addLive n).lists = s.lists := rfl
@[simp] theorem State.addLive_reply (n : Nat) : (s.addLive n).reply = s.reply := rfl
@[simp] theorem State.addLive_outgoing (n : Nat) : (s.addLive n).outgoing = s.outgoing := rfl
@[simp] theorem State.addLive_transaction (n : Nat) : (s.addLive n).transaction = s.transaction := rfl
@[simp] theorem State.addLive_events (n : Nat) : (s.addLive n).events = s.events := rfl
@[simp] theorem State.addLive_mask (n : Nat) : (s.addLive n).mask = s.mask := rfl

/-! ### subLive -/

@[simp] theorem State.subLive_pending (n : Nat) : (s.subLive n).pending = s.pending := rfl
@[simp] theorem State.subLive_now (n : Nat) : (s.subLive n).now = s.now := rfl
@[simp] theorem State.subLive_device (n : Nat) : (s.subLive n).device = s.device := rfl
@[simp] theorem State.subLive_softClear (n : Nat) : (s.subLive n).softClear = s.softClear := rfl
@[simp] theorem State.subLive_work (n : Nat) : (s.subLive n).work = s.work := rfl
@[simp] theorem State.subLive_timer (n : Nat) : (s.subLive n).timer = s.timer := rfl
@[simp] theorem State.subLive_points (n : Nat) : (s.subLive n).points = s.points := rfl
@[simp] theorem State.subLive_occupancy (n : Nat) : (s.subLive n).occupancy = s.occupancy := rfl
@[simp] theorem State.subLive_groups (n : Nat) : (s.subLive n).groups = s.groups := rfl
@[simp] theorem State.subLive_curves (n : Nat) : (s.subLive n).curves = s.curves := rfl
@[simp] theorem State.subLive_results (n : Nat) : (s.subLive n).results = s.results := rfl
@[simp] theorem State.subLive_renderFrame (n : Nat) : (s.subLive n).renderFrame = s.renderFrame := rfl
@[simp] theorem State.subLive_sources (n : Nat) :
    (s.subLive n).sources = s.sources.set Source.por n { s.source n with live := (s.source n).live - 1 } := rfl
@[simp] theorem State.subLive_interval (n : Nat) : (s.subLive n).interval = s.interval := rfl
@[simp] theorem State.subLive_slots (n : Nat) : (s.subLive n).slots = s.slots := rfl
@[simp] theorem State.subLive_names (n : Nat) : (s.subLive n).names = s.names := rfl
@[simp] theorem State.subLive_pool (n : Nat) : (s.subLive n).pool = s.pool := rfl
@[simp] theorem State.subLive_poolFree (n : Nat) : (s.subLive n).poolFree = s.poolFree := rfl
@[simp] theorem State.subLive_sequence (n : Nat) : (s.subLive n).sequence = s.sequence := rfl
@[simp] theorem State.subLive_queue (n : Nat) : (s.subLive n).queue = s.queue := rfl
@[simp] theorem State.subLive_arrival (n : Nat) : (s.subLive n).arrival = s.arrival := rfl
@[simp] theorem State.subLive_lastFailure (n : Nat) : (s.subLive n).lastFailure = s.lastFailure := rfl
@[simp] theorem State.subLive_forces (n : Nat) : (s.subLive n).forces = s.forces := rfl
@[simp] theorem State.subLive_freezes (n : Nat) : (s.subLive n).freezes = s.freezes := rfl
@[simp] theorem State.subLive_masters (n : Nat) : (s.subLive n).masters = s.masters := rfl
@[simp] theorem State.subLive_workLight (n : Nat) : (s.subLive n).workLight = s.workLight := rfl
@[simp] theorem State.subLive_wltPin (n : Nat) : (s.subLive n).wltPin = s.wltPin := rfl
@[simp] theorem State.subLive_wltSample (n : Nat) : (s.subLive n).wltSample = s.wltSample := rfl
@[simp] theorem State.subLive_wltRendered (n : Nat) : (s.subLive n).wltRendered = s.wltRendered := rfl
@[simp] theorem State.subLive_lines (n : Nat) : (s.subLive n).lines = s.lines := rfl
@[simp] theorem State.subLive_inputs (n : Nat) : (s.subLive n).inputs = s.inputs := rfl
@[simp] theorem State.subLive_tiles (n : Nat) : (s.subLive n).tiles = s.tiles := rfl
@[simp] theorem State.subLive_links (n : Nat) : (s.subLive n).links = s.links := rfl
@[simp] theorem State.subLive_plates (n : Nat) : (s.subLive n).plates = s.plates := rfl
@[simp] theorem State.subLive_descriptors (n : Nat) : (s.subLive n).descriptors = s.descriptors := rfl
@[simp] theorem State.subLive_descriptorFree (n : Nat) : (s.subLive n).descriptorFree = s.descriptorFree := rfl
@[simp] theorem State.subLive_fetches (n : Nat) : (s.subLive n).fetches = s.fetches := rfl
@[simp] theorem State.subLive_draws (n : Nat) : (s.subLive n).draws = s.draws := rfl
@[simp] theorem State.subLive_cues (n : Nat) : (s.subLive n).cues = s.cues := rfl
@[simp] theorem State.subLive_actions (n : Nat) : (s.subLive n).actions = s.actions := rfl
@[simp] theorem State.subLive_actionFree (n : Nat) : (s.subLive n).actionFree = s.actionFree := rfl
@[simp] theorem State.subLive_lists (n : Nat) : (s.subLive n).lists = s.lists := rfl
@[simp] theorem State.subLive_reply (n : Nat) : (s.subLive n).reply = s.reply := rfl
@[simp] theorem State.subLive_outgoing (n : Nat) : (s.subLive n).outgoing = s.outgoing := rfl
@[simp] theorem State.subLive_transaction (n : Nat) : (s.subLive n).transaction = s.transaction := rfl
@[simp] theorem State.subLive_events (n : Nat) : (s.subLive n).events = s.events := rfl
@[simp] theorem State.subLive_mask (n : Nat) : (s.subLive n).mask = s.mask := rfl

/-! ### enqueue -/

@[simp] theorem State.enqueue_pending (source : Nat) (origin : Origin) (effective : Word) (body : EntryBody) :
    (s.enqueue source origin effective body).pending = s.pending := rfl
@[simp] theorem State.enqueue_now (source : Nat) (origin : Origin) (effective : Word) (body : EntryBody) :
    (s.enqueue source origin effective body).now = s.now := rfl
@[simp] theorem State.enqueue_device (source : Nat) (origin : Origin) (effective : Word) (body : EntryBody) :
    (s.enqueue source origin effective body).device = s.device := rfl
@[simp] theorem State.enqueue_softClear (source : Nat) (origin : Origin) (effective : Word) (body : EntryBody) :
    (s.enqueue source origin effective body).softClear = s.softClear := rfl
@[simp] theorem State.enqueue_work (source : Nat) (origin : Origin) (effective : Word) (body : EntryBody) :
    (s.enqueue source origin effective body).work = s.work := rfl
@[simp] theorem State.enqueue_timer (source : Nat) (origin : Origin) (effective : Word) (body : EntryBody) :
    (s.enqueue source origin effective body).timer = s.timer := rfl
@[simp] theorem State.enqueue_points (source : Nat) (origin : Origin) (effective : Word) (body : EntryBody) :
    (s.enqueue source origin effective body).points = s.points := rfl
@[simp] theorem State.enqueue_occupancy (source : Nat) (origin : Origin) (effective : Word) (body : EntryBody) :
    (s.enqueue source origin effective body).occupancy = s.occupancy := rfl
@[simp] theorem State.enqueue_groups (source : Nat) (origin : Origin) (effective : Word) (body : EntryBody) :
    (s.enqueue source origin effective body).groups = s.groups := rfl
@[simp] theorem State.enqueue_curves (source : Nat) (origin : Origin) (effective : Word) (body : EntryBody) :
    (s.enqueue source origin effective body).curves = s.curves := rfl
@[simp] theorem State.enqueue_results (source : Nat) (origin : Origin) (effective : Word) (body : EntryBody) :
    (s.enqueue source origin effective body).results = s.results := rfl
@[simp] theorem State.enqueue_renderFrame (source : Nat) (origin : Origin) (effective : Word) (body : EntryBody) :
    (s.enqueue source origin effective body).renderFrame = s.renderFrame := rfl
@[simp] theorem State.enqueue_sources (source : Nat) (origin : Origin) (effective : Word) (body : EntryBody) :
    (s.enqueue source origin effective body).sources = s.sources := rfl
@[simp] theorem State.enqueue_interval (source : Nat) (origin : Origin) (effective : Word) (body : EntryBody) :
    (s.enqueue source origin effective body).interval = s.interval := rfl
@[simp] theorem State.enqueue_slots (source : Nat) (origin : Origin) (effective : Word) (body : EntryBody) :
    (s.enqueue source origin effective body).slots = s.slots := rfl
@[simp] theorem State.enqueue_names (source : Nat) (origin : Origin) (effective : Word) (body : EntryBody) :
    (s.enqueue source origin effective body).names = s.names := rfl
@[simp] theorem State.enqueue_pool (source : Nat) (origin : Origin) (effective : Word) (body : EntryBody) :
    (s.enqueue source origin effective body).pool = s.pool := rfl
@[simp] theorem State.enqueue_poolFree (source : Nat) (origin : Origin) (effective : Word) (body : EntryBody) :
    (s.enqueue source origin effective body).poolFree = s.poolFree := rfl
@[simp] theorem State.enqueue_sequence (source : Nat) (origin : Origin) (effective : Word) (body : EntryBody) :
    (s.enqueue source origin effective body).sequence = s.sequence := rfl
@[simp] theorem State.enqueue_queue (source : Nat) (origin : Origin) (effective : Word) (body : EntryBody) :
    (s.enqueue source origin effective body).queue = s.queue ++ [⟨source, origin, s.arrival, effective, body, false⟩] := rfl
@[simp] theorem State.enqueue_arrival (source : Nat) (origin : Origin) (effective : Word) (body : EntryBody) :
    (s.enqueue source origin effective body).arrival = s.arrival + 1 := rfl
@[simp] theorem State.enqueue_lastFailure (source : Nat) (origin : Origin) (effective : Word) (body : EntryBody) :
    (s.enqueue source origin effective body).lastFailure = s.lastFailure := rfl
@[simp] theorem State.enqueue_forces (source : Nat) (origin : Origin) (effective : Word) (body : EntryBody) :
    (s.enqueue source origin effective body).forces = s.forces := rfl
@[simp] theorem State.enqueue_freezes (source : Nat) (origin : Origin) (effective : Word) (body : EntryBody) :
    (s.enqueue source origin effective body).freezes = s.freezes := rfl
@[simp] theorem State.enqueue_masters (source : Nat) (origin : Origin) (effective : Word) (body : EntryBody) :
    (s.enqueue source origin effective body).masters = s.masters := rfl
@[simp] theorem State.enqueue_workLight (source : Nat) (origin : Origin) (effective : Word) (body : EntryBody) :
    (s.enqueue source origin effective body).workLight = s.workLight := rfl
@[simp] theorem State.enqueue_wltPin (source : Nat) (origin : Origin) (effective : Word) (body : EntryBody) :
    (s.enqueue source origin effective body).wltPin = s.wltPin := rfl
@[simp] theorem State.enqueue_wltSample (source : Nat) (origin : Origin) (effective : Word) (body : EntryBody) :
    (s.enqueue source origin effective body).wltSample = s.wltSample := rfl
@[simp] theorem State.enqueue_wltRendered (source : Nat) (origin : Origin) (effective : Word) (body : EntryBody) :
    (s.enqueue source origin effective body).wltRendered = s.wltRendered := rfl
@[simp] theorem State.enqueue_lines (source : Nat) (origin : Origin) (effective : Word) (body : EntryBody) :
    (s.enqueue source origin effective body).lines = s.lines := rfl
@[simp] theorem State.enqueue_inputs (source : Nat) (origin : Origin) (effective : Word) (body : EntryBody) :
    (s.enqueue source origin effective body).inputs = s.inputs := rfl
@[simp] theorem State.enqueue_tiles (source : Nat) (origin : Origin) (effective : Word) (body : EntryBody) :
    (s.enqueue source origin effective body).tiles = s.tiles := rfl
@[simp] theorem State.enqueue_links (source : Nat) (origin : Origin) (effective : Word) (body : EntryBody) :
    (s.enqueue source origin effective body).links = s.links := rfl
@[simp] theorem State.enqueue_plates (source : Nat) (origin : Origin) (effective : Word) (body : EntryBody) :
    (s.enqueue source origin effective body).plates = s.plates := rfl
@[simp] theorem State.enqueue_descriptors (source : Nat) (origin : Origin) (effective : Word) (body : EntryBody) :
    (s.enqueue source origin effective body).descriptors = s.descriptors := rfl
@[simp] theorem State.enqueue_descriptorFree (source : Nat) (origin : Origin) (effective : Word) (body : EntryBody) :
    (s.enqueue source origin effective body).descriptorFree = s.descriptorFree := rfl
@[simp] theorem State.enqueue_fetches (source : Nat) (origin : Origin) (effective : Word) (body : EntryBody) :
    (s.enqueue source origin effective body).fetches = s.fetches := rfl
@[simp] theorem State.enqueue_draws (source : Nat) (origin : Origin) (effective : Word) (body : EntryBody) :
    (s.enqueue source origin effective body).draws = s.draws := rfl
@[simp] theorem State.enqueue_cues (source : Nat) (origin : Origin) (effective : Word) (body : EntryBody) :
    (s.enqueue source origin effective body).cues = s.cues := rfl
@[simp] theorem State.enqueue_actions (source : Nat) (origin : Origin) (effective : Word) (body : EntryBody) :
    (s.enqueue source origin effective body).actions = s.actions := rfl
@[simp] theorem State.enqueue_actionFree (source : Nat) (origin : Origin) (effective : Word) (body : EntryBody) :
    (s.enqueue source origin effective body).actionFree = s.actionFree := rfl
@[simp] theorem State.enqueue_lists (source : Nat) (origin : Origin) (effective : Word) (body : EntryBody) :
    (s.enqueue source origin effective body).lists = s.lists := rfl
@[simp] theorem State.enqueue_reply (source : Nat) (origin : Origin) (effective : Word) (body : EntryBody) :
    (s.enqueue source origin effective body).reply = s.reply := rfl
@[simp] theorem State.enqueue_outgoing (source : Nat) (origin : Origin) (effective : Word) (body : EntryBody) :
    (s.enqueue source origin effective body).outgoing = s.outgoing := rfl
@[simp] theorem State.enqueue_transaction (source : Nat) (origin : Origin) (effective : Word) (body : EntryBody) :
    (s.enqueue source origin effective body).transaction = s.transaction := rfl
@[simp] theorem State.enqueue_events (source : Nat) (origin : Origin) (effective : Word) (body : EntryBody) :
    (s.enqueue source origin effective body).events = s.events := rfl
@[simp] theorem State.enqueue_mask (source : Nat) (origin : Origin) (effective : Word) (body : EntryBody) :
    (s.enqueue source origin effective body).mask = s.mask := rfl

/-! ### withdrawTake -/

@[simp] theorem State.withdrawTake_pending (h : Handle) : (s.withdrawTake h).pending = s.pending := rfl
@[simp] theorem State.withdrawTake_now (h : Handle) : (s.withdrawTake h).now = s.now := rfl
@[simp] theorem State.withdrawTake_device (h : Handle) : (s.withdrawTake h).device = s.device := rfl
@[simp] theorem State.withdrawTake_softClear (h : Handle) : (s.withdrawTake h).softClear = s.softClear := rfl
@[simp] theorem State.withdrawTake_work (h : Handle) : (s.withdrawTake h).work = s.work := rfl
@[simp] theorem State.withdrawTake_timer (h : Handle) : (s.withdrawTake h).timer = s.timer := rfl
@[simp] theorem State.withdrawTake_points (h : Handle) : (s.withdrawTake h).points = s.points := rfl
@[simp] theorem State.withdrawTake_occupancy (h : Handle) : (s.withdrawTake h).occupancy = s.occupancy := rfl
@[simp] theorem State.withdrawTake_groups (h : Handle) : (s.withdrawTake h).groups = s.groups := rfl
@[simp] theorem State.withdrawTake_curves (h : Handle) : (s.withdrawTake h).curves = s.curves := rfl
@[simp] theorem State.withdrawTake_results (h : Handle) : (s.withdrawTake h).results = s.results := rfl
@[simp] theorem State.withdrawTake_renderFrame (h : Handle) : (s.withdrawTake h).renderFrame = s.renderFrame := rfl
@[simp] theorem State.withdrawTake_sources (h : Handle) : (s.withdrawTake h).sources = s.sources := rfl
@[simp] theorem State.withdrawTake_interval (h : Handle) : (s.withdrawTake h).interval = s.interval := rfl
@[simp] theorem State.withdrawTake_slots (h : Handle) : (s.withdrawTake h).slots = s.slots := rfl
@[simp] theorem State.withdrawTake_names (h : Handle) : (s.withdrawTake h).names = s.names := rfl
@[simp] theorem State.withdrawTake_pool (h : Handle) : (s.withdrawTake h).pool = s.pool := rfl
@[simp] theorem State.withdrawTake_poolFree (h : Handle) : (s.withdrawTake h).poolFree = s.poolFree := rfl
@[simp] theorem State.withdrawTake_sequence (h : Handle) : (s.withdrawTake h).sequence = s.sequence := rfl
@[simp] theorem State.withdrawTake_queue (h : Handle) :
    (s.withdrawTake h).queue = s.queue.filter fun e => !e.isTakeOf h := rfl
@[simp] theorem State.withdrawTake_arrival (h : Handle) : (s.withdrawTake h).arrival = s.arrival := rfl
@[simp] theorem State.withdrawTake_lastFailure (h : Handle) : (s.withdrawTake h).lastFailure = s.lastFailure := rfl
@[simp] theorem State.withdrawTake_forces (h : Handle) : (s.withdrawTake h).forces = s.forces := rfl
@[simp] theorem State.withdrawTake_freezes (h : Handle) : (s.withdrawTake h).freezes = s.freezes := rfl
@[simp] theorem State.withdrawTake_masters (h : Handle) : (s.withdrawTake h).masters = s.masters := rfl
@[simp] theorem State.withdrawTake_workLight (h : Handle) : (s.withdrawTake h).workLight = s.workLight := rfl
@[simp] theorem State.withdrawTake_wltPin (h : Handle) : (s.withdrawTake h).wltPin = s.wltPin := rfl
@[simp] theorem State.withdrawTake_wltSample (h : Handle) : (s.withdrawTake h).wltSample = s.wltSample := rfl
@[simp] theorem State.withdrawTake_wltRendered (h : Handle) : (s.withdrawTake h).wltRendered = s.wltRendered := rfl
@[simp] theorem State.withdrawTake_lines (h : Handle) : (s.withdrawTake h).lines = s.lines := rfl
@[simp] theorem State.withdrawTake_inputs (h : Handle) : (s.withdrawTake h).inputs = s.inputs := rfl
@[simp] theorem State.withdrawTake_tiles (h : Handle) : (s.withdrawTake h).tiles = s.tiles := rfl
@[simp] theorem State.withdrawTake_links (h : Handle) : (s.withdrawTake h).links = s.links := rfl
@[simp] theorem State.withdrawTake_plates (h : Handle) : (s.withdrawTake h).plates = s.plates := rfl
@[simp] theorem State.withdrawTake_descriptors (h : Handle) : (s.withdrawTake h).descriptors = s.descriptors := rfl
@[simp] theorem State.withdrawTake_descriptorFree (h : Handle) :
    (s.withdrawTake h).descriptorFree = s.descriptorFree := rfl
@[simp] theorem State.withdrawTake_fetches (h : Handle) : (s.withdrawTake h).fetches = s.fetches := rfl
@[simp] theorem State.withdrawTake_draws (h : Handle) : (s.withdrawTake h).draws = s.draws := rfl
@[simp] theorem State.withdrawTake_cues (h : Handle) : (s.withdrawTake h).cues = s.cues := rfl
@[simp] theorem State.withdrawTake_actions (h : Handle) : (s.withdrawTake h).actions = s.actions := rfl
@[simp] theorem State.withdrawTake_actionFree (h : Handle) : (s.withdrawTake h).actionFree = s.actionFree := rfl
@[simp] theorem State.withdrawTake_lists (h : Handle) : (s.withdrawTake h).lists = s.lists := rfl
@[simp] theorem State.withdrawTake_reply (h : Handle) : (s.withdrawTake h).reply = s.reply := rfl
@[simp] theorem State.withdrawTake_outgoing (h : Handle) : (s.withdrawTake h).outgoing = s.outgoing := rfl
@[simp] theorem State.withdrawTake_transaction (h : Handle) : (s.withdrawTake h).transaction = s.transaction := rfl
@[simp] theorem State.withdrawTake_events (h : Handle) : (s.withdrawTake h).events = s.events := rfl
@[simp] theorem State.withdrawTake_mask (h : Handle) : (s.withdrawTake h).mask = s.mask := rfl

/-! ### replyWith -/

@[simp] theorem State.replyWith_pending (code : Byte) (st : Status) (clamped : Bool) (fields : List Byte) :
    (s.replyWith code st clamped fields).pending = s.pending := rfl
@[simp] theorem State.replyWith_now (code : Byte) (st : Status) (clamped : Bool) (fields : List Byte) :
    (s.replyWith code st clamped fields).now = s.now := rfl
@[simp] theorem State.replyWith_device (code : Byte) (st : Status) (clamped : Bool) (fields : List Byte) :
    (s.replyWith code st clamped fields).device = s.device := rfl
@[simp] theorem State.replyWith_softClear (code : Byte) (st : Status) (clamped : Bool) (fields : List Byte) :
    (s.replyWith code st clamped fields).softClear = s.softClear := rfl
@[simp] theorem State.replyWith_work (code : Byte) (st : Status) (clamped : Bool) (fields : List Byte) :
    (s.replyWith code st clamped fields).work = s.work := rfl
@[simp] theorem State.replyWith_timer (code : Byte) (st : Status) (clamped : Bool) (fields : List Byte) :
    (s.replyWith code st clamped fields).timer = s.timer := rfl
@[simp] theorem State.replyWith_points (code : Byte) (st : Status) (clamped : Bool) (fields : List Byte) :
    (s.replyWith code st clamped fields).points = s.points := rfl
@[simp] theorem State.replyWith_occupancy (code : Byte) (st : Status) (clamped : Bool) (fields : List Byte) :
    (s.replyWith code st clamped fields).occupancy = s.occupancy := rfl
@[simp] theorem State.replyWith_groups (code : Byte) (st : Status) (clamped : Bool) (fields : List Byte) :
    (s.replyWith code st clamped fields).groups = s.groups := rfl
@[simp] theorem State.replyWith_curves (code : Byte) (st : Status) (clamped : Bool) (fields : List Byte) :
    (s.replyWith code st clamped fields).curves = s.curves := rfl
@[simp] theorem State.replyWith_results (code : Byte) (st : Status) (clamped : Bool) (fields : List Byte) :
    (s.replyWith code st clamped fields).results = s.results := rfl
@[simp] theorem State.replyWith_renderFrame (code : Byte) (st : Status) (clamped : Bool) (fields : List Byte) :
    (s.replyWith code st clamped fields).renderFrame = s.renderFrame := rfl
@[simp] theorem State.replyWith_sources (code : Byte) (st : Status) (clamped : Bool) (fields : List Byte) :
    (s.replyWith code st clamped fields).sources = s.sources := rfl
@[simp] theorem State.replyWith_interval (code : Byte) (st : Status) (clamped : Bool) (fields : List Byte) :
    (s.replyWith code st clamped fields).interval = s.interval := rfl
@[simp] theorem State.replyWith_slots (code : Byte) (st : Status) (clamped : Bool) (fields : List Byte) :
    (s.replyWith code st clamped fields).slots = s.slots := rfl
@[simp] theorem State.replyWith_names (code : Byte) (st : Status) (clamped : Bool) (fields : List Byte) :
    (s.replyWith code st clamped fields).names = s.names := rfl
@[simp] theorem State.replyWith_pool (code : Byte) (st : Status) (clamped : Bool) (fields : List Byte) :
    (s.replyWith code st clamped fields).pool = s.pool := rfl
@[simp] theorem State.replyWith_poolFree (code : Byte) (st : Status) (clamped : Bool) (fields : List Byte) :
    (s.replyWith code st clamped fields).poolFree = s.poolFree := rfl
@[simp] theorem State.replyWith_sequence (code : Byte) (st : Status) (clamped : Bool) (fields : List Byte) :
    (s.replyWith code st clamped fields).sequence = s.sequence := rfl
@[simp] theorem State.replyWith_queue (code : Byte) (st : Status) (clamped : Bool) (fields : List Byte) :
    (s.replyWith code st clamped fields).queue = s.queue := rfl
@[simp] theorem State.replyWith_arrival (code : Byte) (st : Status) (clamped : Bool) (fields : List Byte) :
    (s.replyWith code st clamped fields).arrival = s.arrival := rfl
@[simp] theorem State.replyWith_lastFailure (code : Byte) (st : Status) (clamped : Bool) (fields : List Byte) :
    (s.replyWith code st clamped fields).lastFailure = s.lastFailure := rfl
@[simp] theorem State.replyWith_forces (code : Byte) (st : Status) (clamped : Bool) (fields : List Byte) :
    (s.replyWith code st clamped fields).forces = s.forces := rfl
@[simp] theorem State.replyWith_freezes (code : Byte) (st : Status) (clamped : Bool) (fields : List Byte) :
    (s.replyWith code st clamped fields).freezes = s.freezes := rfl
@[simp] theorem State.replyWith_masters (code : Byte) (st : Status) (clamped : Bool) (fields : List Byte) :
    (s.replyWith code st clamped fields).masters = s.masters := rfl
@[simp] theorem State.replyWith_workLight (code : Byte) (st : Status) (clamped : Bool) (fields : List Byte) :
    (s.replyWith code st clamped fields).workLight = s.workLight := rfl
@[simp] theorem State.replyWith_wltPin (code : Byte) (st : Status) (clamped : Bool) (fields : List Byte) :
    (s.replyWith code st clamped fields).wltPin = s.wltPin := rfl
@[simp] theorem State.replyWith_wltSample (code : Byte) (st : Status) (clamped : Bool) (fields : List Byte) :
    (s.replyWith code st clamped fields).wltSample = s.wltSample := rfl
@[simp] theorem State.replyWith_wltRendered (code : Byte) (st : Status) (clamped : Bool) (fields : List Byte) :
    (s.replyWith code st clamped fields).wltRendered = s.wltRendered := rfl
@[simp] theorem State.replyWith_lines (code : Byte) (st : Status) (clamped : Bool) (fields : List Byte) :
    (s.replyWith code st clamped fields).lines = s.lines := rfl
@[simp] theorem State.replyWith_inputs (code : Byte) (st : Status) (clamped : Bool) (fields : List Byte) :
    (s.replyWith code st clamped fields).inputs = s.inputs := rfl
@[simp] theorem State.replyWith_tiles (code : Byte) (st : Status) (clamped : Bool) (fields : List Byte) :
    (s.replyWith code st clamped fields).tiles = s.tiles := rfl
@[simp] theorem State.replyWith_links (code : Byte) (st : Status) (clamped : Bool) (fields : List Byte) :
    (s.replyWith code st clamped fields).links = s.links := rfl
@[simp] theorem State.replyWith_plates (code : Byte) (st : Status) (clamped : Bool) (fields : List Byte) :
    (s.replyWith code st clamped fields).plates = s.plates := rfl
@[simp] theorem State.replyWith_descriptors (code : Byte) (st : Status) (clamped : Bool) (fields : List Byte) :
    (s.replyWith code st clamped fields).descriptors = s.descriptors := rfl
@[simp] theorem State.replyWith_descriptorFree (code : Byte) (st : Status) (clamped : Bool) (fields : List Byte) :
    (s.replyWith code st clamped fields).descriptorFree = s.descriptorFree := rfl
@[simp] theorem State.replyWith_fetches (code : Byte) (st : Status) (clamped : Bool) (fields : List Byte) :
    (s.replyWith code st clamped fields).fetches = s.fetches := rfl
@[simp] theorem State.replyWith_draws (code : Byte) (st : Status) (clamped : Bool) (fields : List Byte) :
    (s.replyWith code st clamped fields).draws = s.draws := rfl
@[simp] theorem State.replyWith_cues (code : Byte) (st : Status) (clamped : Bool) (fields : List Byte) :
    (s.replyWith code st clamped fields).cues = s.cues := rfl
@[simp] theorem State.replyWith_actions (code : Byte) (st : Status) (clamped : Bool) (fields : List Byte) :
    (s.replyWith code st clamped fields).actions = s.actions := rfl
@[simp] theorem State.replyWith_actionFree (code : Byte) (st : Status) (clamped : Bool) (fields : List Byte) :
    (s.replyWith code st clamped fields).actionFree = s.actionFree := rfl
@[simp] theorem State.replyWith_lists (code : Byte) (st : Status) (clamped : Bool) (fields : List Byte) :
    (s.replyWith code st clamped fields).lists = s.lists := rfl
@[simp] theorem State.replyWith_reply (code : Byte) (st : Status) (clamped : Bool) (fields : List Byte) :
    (s.replyWith code st clamped fields).reply = replyBytes code st clamped fields := rfl
@[simp] theorem State.replyWith_outgoing (code : Byte) (st : Status) (clamped : Bool) (fields : List Byte) :
    (s.replyWith code st clamped fields).outgoing = s.outgoing := rfl
@[simp] theorem State.replyWith_transaction (code : Byte) (st : Status) (clamped : Bool) (fields : List Byte) :
    (s.replyWith code st clamped fields).transaction = s.transaction := rfl
@[simp] theorem State.replyWith_events (code : Byte) (st : Status) (clamped : Bool) (fields : List Byte) :
    (s.replyWith code st clamped fields).events = s.events := rfl
@[simp] theorem State.replyWith_mask (code : Byte) (st : Status) (clamped : Bool) (fields : List Byte) :
    (s.replyWith code st clamped fields).mask = s.mask := rfl

/-! ### setEvaluation -/

@[simp] theorem State.setEvaluation_pending (e : Option Evaluation) : (s.setEvaluation e).pending = s.pending := rfl
@[simp] theorem State.setEvaluation_now (e : Option Evaluation) : (s.setEvaluation e).now = s.now := rfl
@[simp] theorem State.setEvaluation_device (e : Option Evaluation) : (s.setEvaluation e).device = s.device := rfl
@[simp] theorem State.setEvaluation_softClear (e : Option Evaluation) :
    (s.setEvaluation e).softClear = s.softClear := rfl
@[simp] theorem State.setEvaluation_work (e : Option Evaluation) :
    (s.setEvaluation e).work = { s.work with evaluation := e } := rfl
@[simp] theorem State.setEvaluation_timer (e : Option Evaluation) : (s.setEvaluation e).timer = s.timer := rfl
@[simp] theorem State.setEvaluation_points (e : Option Evaluation) : (s.setEvaluation e).points = s.points := rfl
@[simp] theorem State.setEvaluation_occupancy (e : Option Evaluation) :
    (s.setEvaluation e).occupancy = s.occupancy := rfl
@[simp] theorem State.setEvaluation_groups (e : Option Evaluation) : (s.setEvaluation e).groups = s.groups := rfl
@[simp] theorem State.setEvaluation_curves (e : Option Evaluation) : (s.setEvaluation e).curves = s.curves := rfl
@[simp] theorem State.setEvaluation_results (e : Option Evaluation) : (s.setEvaluation e).results = s.results := rfl
@[simp] theorem State.setEvaluation_renderFrame (e : Option Evaluation) :
    (s.setEvaluation e).renderFrame = s.renderFrame := rfl
@[simp] theorem State.setEvaluation_sources (e : Option Evaluation) : (s.setEvaluation e).sources = s.sources := rfl
@[simp] theorem State.setEvaluation_interval (e : Option Evaluation) : (s.setEvaluation e).interval = s.interval := rfl
@[simp] theorem State.setEvaluation_slots (e : Option Evaluation) : (s.setEvaluation e).slots = s.slots := rfl
@[simp] theorem State.setEvaluation_names (e : Option Evaluation) : (s.setEvaluation e).names = s.names := rfl
@[simp] theorem State.setEvaluation_pool (e : Option Evaluation) : (s.setEvaluation e).pool = s.pool := rfl
@[simp] theorem State.setEvaluation_poolFree (e : Option Evaluation) : (s.setEvaluation e).poolFree = s.poolFree := rfl
@[simp] theorem State.setEvaluation_sequence (e : Option Evaluation) : (s.setEvaluation e).sequence = s.sequence := rfl
@[simp] theorem State.setEvaluation_queue (e : Option Evaluation) : (s.setEvaluation e).queue = s.queue := rfl
@[simp] theorem State.setEvaluation_arrival (e : Option Evaluation) : (s.setEvaluation e).arrival = s.arrival := rfl
@[simp] theorem State.setEvaluation_lastFailure (e : Option Evaluation) :
    (s.setEvaluation e).lastFailure = s.lastFailure := rfl
@[simp] theorem State.setEvaluation_forces (e : Option Evaluation) : (s.setEvaluation e).forces = s.forces := rfl
@[simp] theorem State.setEvaluation_freezes (e : Option Evaluation) : (s.setEvaluation e).freezes = s.freezes := rfl
@[simp] theorem State.setEvaluation_masters (e : Option Evaluation) : (s.setEvaluation e).masters = s.masters := rfl
@[simp] theorem State.setEvaluation_workLight (e : Option Evaluation) :
    (s.setEvaluation e).workLight = s.workLight := rfl
@[simp] theorem State.setEvaluation_wltPin (e : Option Evaluation) : (s.setEvaluation e).wltPin = s.wltPin := rfl
@[simp] theorem State.setEvaluation_wltSample (e : Option Evaluation) :
    (s.setEvaluation e).wltSample = s.wltSample := rfl
@[simp] theorem State.setEvaluation_wltRendered (e : Option Evaluation) :
    (s.setEvaluation e).wltRendered = s.wltRendered := rfl
@[simp] theorem State.setEvaluation_lines (e : Option Evaluation) : (s.setEvaluation e).lines = s.lines := rfl
@[simp] theorem State.setEvaluation_inputs (e : Option Evaluation) : (s.setEvaluation e).inputs = s.inputs := rfl
@[simp] theorem State.setEvaluation_tiles (e : Option Evaluation) : (s.setEvaluation e).tiles = s.tiles := rfl
@[simp] theorem State.setEvaluation_links (e : Option Evaluation) : (s.setEvaluation e).links = s.links := rfl
@[simp] theorem State.setEvaluation_plates (e : Option Evaluation) : (s.setEvaluation e).plates = s.plates := rfl
@[simp] theorem State.setEvaluation_descriptors (e : Option Evaluation) :
    (s.setEvaluation e).descriptors = s.descriptors := rfl
@[simp] theorem State.setEvaluation_descriptorFree (e : Option Evaluation) :
    (s.setEvaluation e).descriptorFree = s.descriptorFree := rfl
@[simp] theorem State.setEvaluation_fetches (e : Option Evaluation) : (s.setEvaluation e).fetches = s.fetches := rfl
@[simp] theorem State.setEvaluation_draws (e : Option Evaluation) : (s.setEvaluation e).draws = s.draws := rfl
@[simp] theorem State.setEvaluation_cues (e : Option Evaluation) : (s.setEvaluation e).cues = s.cues := rfl
@[simp] theorem State.setEvaluation_actions (e : Option Evaluation) : (s.setEvaluation e).actions = s.actions := rfl
@[simp] theorem State.setEvaluation_actionFree (e : Option Evaluation) :
    (s.setEvaluation e).actionFree = s.actionFree := rfl
@[simp] theorem State.setEvaluation_lists (e : Option Evaluation) : (s.setEvaluation e).lists = s.lists := rfl
@[simp] theorem State.setEvaluation_reply (e : Option Evaluation) : (s.setEvaluation e).reply = s.reply := rfl
@[simp] theorem State.setEvaluation_outgoing (e : Option Evaluation) : (s.setEvaluation e).outgoing = s.outgoing := rfl
@[simp] theorem State.setEvaluation_transaction (e : Option Evaluation) :
    (s.setEvaluation e).transaction = s.transaction := rfl
@[simp] theorem State.setEvaluation_events (e : Option Evaluation) : (s.setEvaluation e).events = s.events := rfl
@[simp] theorem State.setEvaluation_mask (e : Option Evaluation) : (s.setEvaluation e).mask = s.mask := rfl

/-! ### latchReply -/

@[simp] theorem State.latchReply_pending : (s.latchReply).pending = s.pending := rfl
@[simp] theorem State.latchReply_now : (s.latchReply).now = s.now := rfl
@[simp] theorem State.latchReply_device : (s.latchReply).device = s.device := rfl
@[simp] theorem State.latchReply_softClear : (s.latchReply).softClear = s.softClear := rfl
@[simp] theorem State.latchReply_work : (s.latchReply).work = s.work := rfl
@[simp] theorem State.latchReply_timer : (s.latchReply).timer = s.timer := rfl
@[simp] theorem State.latchReply_points : (s.latchReply).points = s.points := rfl
@[simp] theorem State.latchReply_occupancy : (s.latchReply).occupancy = s.occupancy := rfl
@[simp] theorem State.latchReply_groups : (s.latchReply).groups = s.groups := rfl
@[simp] theorem State.latchReply_curves : (s.latchReply).curves = s.curves := rfl
@[simp] theorem State.latchReply_results : (s.latchReply).results = s.results := rfl
@[simp] theorem State.latchReply_renderFrame : (s.latchReply).renderFrame = s.renderFrame := rfl
@[simp] theorem State.latchReply_sources : (s.latchReply).sources = s.sources := rfl
@[simp] theorem State.latchReply_interval : (s.latchReply).interval = s.interval := rfl
@[simp] theorem State.latchReply_slots : (s.latchReply).slots = s.slots := rfl
@[simp] theorem State.latchReply_names : (s.latchReply).names = s.names := rfl
@[simp] theorem State.latchReply_pool : (s.latchReply).pool = s.pool := rfl
@[simp] theorem State.latchReply_poolFree : (s.latchReply).poolFree = s.poolFree := rfl
@[simp] theorem State.latchReply_sequence : (s.latchReply).sequence = s.sequence := rfl
@[simp] theorem State.latchReply_queue : (s.latchReply).queue = s.queue := rfl
@[simp] theorem State.latchReply_arrival : (s.latchReply).arrival = s.arrival := rfl
@[simp] theorem State.latchReply_lastFailure : (s.latchReply).lastFailure = s.lastFailure := rfl
@[simp] theorem State.latchReply_forces : (s.latchReply).forces = s.forces := rfl
@[simp] theorem State.latchReply_freezes : (s.latchReply).freezes = s.freezes := rfl
@[simp] theorem State.latchReply_masters : (s.latchReply).masters = s.masters := rfl
@[simp] theorem State.latchReply_workLight : (s.latchReply).workLight = s.workLight := rfl
@[simp] theorem State.latchReply_wltPin : (s.latchReply).wltPin = s.wltPin := rfl
@[simp] theorem State.latchReply_wltSample : (s.latchReply).wltSample = s.wltSample := rfl
@[simp] theorem State.latchReply_wltRendered : (s.latchReply).wltRendered = s.wltRendered := rfl
@[simp] theorem State.latchReply_lines : (s.latchReply).lines = s.lines := rfl
@[simp] theorem State.latchReply_inputs : (s.latchReply).inputs = s.inputs := rfl
@[simp] theorem State.latchReply_tiles : (s.latchReply).tiles = s.tiles := rfl
@[simp] theorem State.latchReply_links : (s.latchReply).links = s.links := rfl
@[simp] theorem State.latchReply_plates : (s.latchReply).plates = s.plates := rfl
@[simp] theorem State.latchReply_descriptors : (s.latchReply).descriptors = s.descriptors := rfl
@[simp] theorem State.latchReply_descriptorFree : (s.latchReply).descriptorFree = s.descriptorFree := rfl
@[simp] theorem State.latchReply_fetches : (s.latchReply).fetches = s.fetches := rfl
@[simp] theorem State.latchReply_draws : (s.latchReply).draws = s.draws := rfl
@[simp] theorem State.latchReply_cues : (s.latchReply).cues = s.cues := rfl
@[simp] theorem State.latchReply_actions : (s.latchReply).actions = s.actions := rfl
@[simp] theorem State.latchReply_actionFree : (s.latchReply).actionFree = s.actionFree := rfl
@[simp] theorem State.latchReply_lists : (s.latchReply).lists = s.lists := rfl
@[simp] theorem State.latchReply_reply : (s.latchReply).reply = [] := rfl
@[simp] theorem State.latchReply_outgoing : (s.latchReply).outgoing = s.reply := rfl
@[simp] theorem State.latchReply_transaction : (s.latchReply).transaction = s.transaction := rfl
@[simp] theorem State.latchReply_events : (s.latchReply).events = s.events := rfl
@[simp] theorem State.latchReply_mask : (s.latchReply).mask = s.mask := rfl

end Sys2Proof.Machine
end

