-- ==== Sys2Proof/Laws/Fetches.lean ====
section
/-! SUPPORT. What the operations of the fetch unit do (spec 9.5): the fetch the port serves, the drop of fetches that have
not begun, and the addition of one to the list. -/

namespace Sys2Proof.Machine

/-- A source value is a plate's exactly where it is the plate's number and 5 (R150). -/
theorem plateOf_some {v p : Nat} (h : plateOf v = some p) : v = p + 5 := by
  unfold plateOf at h
  split at h <;> simp at h
  omega

/-- The port serves the first fetch that has not ended, and puts it back in its place. -/
theorem currentFetch_behind (done rest : List Fetch) (f : Fetch) (hd : ∀ g ∈ done, g.ended = true)
    (hf : f.ended = false) :
    ∃ put, currentFetch (done ++ f :: rest) = some (f, put) ∧ ∀ g, put g = done ++ g :: rest := by
  induction done with
  | nil => exact ⟨_, by simp [currentFetch, hf], fun _ => rfl⟩
  | cons x xs ih =>
    obtain ⟨put, h1, h2⟩ := ih fun g hg => hd g (List.mem_cons_of_mem _ hg)
    exact ⟨fun g => x :: put g, by simp [currentFetch, hd x List.mem_cons_self, h1], fun g => by simp [h2]⟩

/-- The drop keeps the fetches that have ended and the one that has begun, and takes away only behind them. -/
theorem dropUnbegun_behind (drop : Fetch → Bool) (done rest : List Fetch) (f : Fetch)
    (hd : ∀ g ∈ done, g.ended = true) (hf : f.ended = false) :
    dropUnbegun drop (done ++ f :: rest) = done ++ f :: rest.filter fun g => !drop g := by
  induction done with
  | nil => simp [dropUnbegun, hf]
  | cons x xs ih =>
    simp [dropUnbegun, hd x List.mem_cons_self, ih fun g hg => hd g (List.mem_cons_of_mem _ hg)]

/-- Adding a fetch leaves everything but the list and the stores of its tile, and puts it at the end, ended where it has
nothing to read. -/
theorem State.addFetch_spec (s : State) (t p : Nat) :
    s.addFetch t p = { s with fetches := (s.addFetch t p).fetches, tiles := (s.addFetch t p).tiles } ∧
      (s.addFetch t p).fetches = s.fetches ++ [{ s.newFetch t p with ended := decide (s.cropReads t p = []) }] := by
  unfold State.addFetch
  by_cases h : s.cropReads t p = [] <;> simp [State.newFetch, h, State.fillStores, State.setTile]

end Sys2Proof.Machine
end

