-- ==== Sys2Proof/Laws/Table.lean ====
section
/-! SUPPORT. What reading and writing a numbered store do, and that every store operation keeps the canonical form. -/

namespace Sys2Proof.Machine

variable {α : Type}

/-! ### Reading back -/

theorem lookupEntry_insertEntry_self (k : Nat) (v : α) (l : List (Nat × α)) :
    lookupEntry k (insertEntry k v l) = some v := by
  induction l with
  | nil => simp [insertEntry, lookupEntry]
  | cons e rest ih =>
    unfold insertEntry
    split
    · simp [lookupEntry]
    · split
      · simp [lookupEntry]
      · rename_i h
        simp [lookupEntry, ih, Ne.symm h]

theorem lookupEntry_insertEntry_other (k j : Nat) (v : α) (l : List (Nat × α)) (h : j ≠ k) :
    lookupEntry j (insertEntry k v l) = lookupEntry j l := by
  induction l with
  | nil => simp [insertEntry, lookupEntry, Ne.symm h]
  | cons e rest ih =>
    unfold insertEntry
    split
    · simp [lookupEntry, Ne.symm h]
    · split
      · rename_i hk
        simp [lookupEntry, ← hk, Ne.symm h]
      · simp [lookupEntry, ih]

theorem lookupEntry_eraseEntry_other (k j : Nat) (l : List (Nat × α)) (h : j ≠ k) :
    lookupEntry j (eraseEntry k l) = lookupEntry j l := by
  induction l with
  | nil => simp [eraseEntry]
  | cons e rest ih =>
    unfold eraseEntry
    split
    · rename_i hk
      simp [lookupEntry, hk, Ne.symm h, ih]
    · simp [lookupEntry, ih]

/-- Every number listed in a rising list is at least its first. -/
theorem risingEntries_head (e : Nat × α) (l : List (Nat × α)) (h : risingEntries (e :: l) = true) :
    ∀ f ∈ l, e.1 < f.1 := by
  induction l generalizing e with
  | nil => simp
  | cons f rest ih =>
    intro g hg
    simp only [risingEntries, Bool.and_eq_true, decide_eq_true_eq] at h
    rcases List.mem_cons.1 hg with rfl | hg
    · exact h.1
    · have := ih f h.2 g hg
      omega

theorem risingEntries_tail (e : Nat × α) (l : List (Nat × α)) (h : risingEntries (e :: l) = true) :
    risingEntries l = true := by
  cases l with
  | nil => rfl
  | cons f rest => simp only [risingEntries, Bool.and_eq_true] at h; exact h.2

/-- A list is rising when its tail is and its first number is below the tail's. -/
theorem risingEntries_cons (e : Nat × α) (l : List (Nat × α)) (h : ∀ f ∈ l, e.1 < f.1)
    (hl : risingEntries l = true) : risingEntries (e :: l) = true := by
  cases l with
  | nil => rfl
  | cons f rest => simp [risingEntries, hl, h f (by simp)]

theorem lookupEntry_none_of_lt (k : Nat) (l : List (Nat × α)) (h : ∀ f ∈ l, k < f.1) : lookupEntry k l = none := by
  induction l with
  | nil => rfl
  | cons e rest ih =>
    have he := h e (by simp)
    have : e.1 ≠ k := by omega
    simp only [lookupEntry, if_neg this]
    exact ih fun f hf => h f (by simp [hf])

theorem lookupEntry_eraseEntry_self (k : Nat) (l : List (Nat × α)) : lookupEntry k (eraseEntry k l) = none := by
  induction l with
  | nil => rfl
  | cons e rest ih =>
    unfold eraseEntry
    split
    · exact ih
    · rename_i hk
      simp [lookupEntry, hk, ih]

variable [DecidableEq α]

/-- Reading a number other than the one written reads as before. -/
theorem Table.get_set_other (t : Table α) (dflt : Nat → α) (k j : Nat) (v : α) (h : j ≠ k) :
    (t.set dflt k v).get dflt j = t.get dflt j := by
  unfold Table.set Table.get
  split <;> simp [lookupEntry_insertEntry_other, lookupEntry_eraseEntry_other, h]

/-- Reading the number written, where the value is not the default. -/
theorem Table.get_set_self_listed (t : Table α) (dflt : Nat → α) (k : Nat) (v : α) (h : v ≠ dflt k) :
    (t.set dflt k v).get dflt k = v := by
  simp [Table.set, Table.get, h, lookupEntry_insertEntry_self]

/-- Reading the number written. -/
@[simp] theorem Table.get_set_self (t : Table α) (dflt : Nat → α) (k : Nat) (v : α) :
    (t.set dflt k v).get dflt k = v := by
  by_cases hv : v = dflt k
  · simp [Table.set, Table.get, hv, lookupEntry_eraseEntry_self]
  · exact t.get_set_self_listed dflt k v hv

/-- Reading any number after a write. -/
theorem Table.get_set (t : Table α) (dflt : Nat → α) (k j : Nat) (v : α) :
    (t.set dflt k v).get dflt j = if j = k then v else t.get dflt j := by
  split
  · rename_i h
    subst h
    exact t.get_set_self dflt j v
  · rename_i h
    exact t.get_set_other dflt k j v h

omit [DecidableEq α] in
theorem lookupEntry_filterMap_none (l : List (Nat × α)) (f : Nat × α → Option (Nat × α)) (k : Nat)
    (hf : ∀ e g, f e = some g → g.1 = e.1) (h : ∀ e ∈ l, e.1 = k → f e = none) : lookupEntry k (l.filterMap f) = none := by
  induction l with
  | nil => rfl
  | cons e rest ih =>
    have ih' := ih fun d hd => h d (by simp [hd])
    cases he : f e with
    | none => simpa [List.filterMap_cons, he] using ih'
    | some g =>
      have hg := hf e g he
      have hk : e.1 ≠ k := fun hk => by simp [h e (by simp) hk] at he
      simp only [List.filterMap_cons, he, lookupEntry]
      rw [if_neg (by omega)]
      exact ih'

/-- Reading a store formed by a function. -/
theorem Table.get_ofFn (dflt : Nat → α) (n : Nat) (f : Nat → α) (k : Nat) :
    (Table.ofFn dflt n f).get dflt k = if k < n then f k else dflt k := by
  suffices h : ∀ a, lookupEntry k ((List.range' a n).filterMap
      fun k => if f k = dflt k then none else some (k, f k)) =
        if a ≤ k ∧ k < a + n ∧ f k ≠ dflt k then some (f k) else none by
    simp only [Table.ofFn, Table.get, List.range_eq_range', h]
    by_cases hk : k < n <;> by_cases hd : f k = dflt k <;> simp [hk, hd]
  induction n with
  | zero => intro a; simp [lookupEntry]; omega
  | succ n ih =>
    intro a
    rw [List.range'_succ, List.filterMap_cons]
    have := ih (a + 1)
    by_cases hd : f a = dflt a
    · simp only [hd, if_true, this]
      by_cases hka : k = a
      · subst hka
        simp [hd]
      · have h1 : (a + 1 ≤ k ∧ k < a + 1 + n ∧ f k ≠ dflt k) ↔ (a ≤ k ∧ k < a + (n + 1) ∧ f k ≠ dflt k) := by
          constructor <;> rintro ⟨_, _, _⟩ <;> refine ⟨?_, ?_, ?_⟩ <;> first | assumption | omega
        simp only [h1]
    · simp only [hd, if_false, lookupEntry]
      by_cases hka : a = k
      · subst hka
        simp [hd]
      · rw [if_neg hka, this]
        have h1 : (a + 1 ≤ k ∧ k < a + 1 + n ∧ f k ≠ dflt k) ↔ (a ≤ k ∧ k < a + (n + 1) ∧ f k ≠ dflt k) := by
          constructor <;> rintro ⟨_, _, _⟩ <;> refine ⟨?_, ?_, ?_⟩ <;> first | assumption | omega
        simp only [h1]

/-! ### The canonical form -/

omit [DecidableEq α] in
theorem mem_insertEntry (k : Nat) (v : α) (l : List (Nat × α)) (e : Nat × α) (h : e ∈ insertEntry k v l) :
    e = (k, v) ∨ e ∈ l := by
  induction l with
  | nil => simpa [insertEntry] using h
  | cons d rest ih =>
    unfold insertEntry at h
    split at h
    · simp only [List.mem_cons] at h ⊢
      rcases h with h | h | h <;> simp_all
    · split at h
      · simp only [List.mem_cons] at h ⊢
        rcases h with h | h <;> simp_all
      · simp only [List.mem_cons] at h ⊢
        rcases h with h | h
        · simp_all
        · rcases ih h with h | h <;> simp_all

omit [DecidableEq α] in
theorem mem_eraseEntry (k : Nat) (l : List (Nat × α)) (e : Nat × α) (h : e ∈ eraseEntry k l) : e ∈ l := by
  induction l with
  | nil => simp [eraseEntry] at h
  | cons d rest ih =>
    unfold eraseEntry at h
    split at h
    · exact List.mem_cons_of_mem _ (ih h)
    · simp only [List.mem_cons] at h ⊢
      rcases h with h | h
      · exact .inl h
      · exact .inr (ih h)

omit [DecidableEq α] in
theorem risingEntries_insertEntry (k : Nat) (v : α) (l : List (Nat × α)) (h : risingEntries l = true) :
    risingEntries (insertEntry k v l) = true := by
  induction l with
  | nil => rfl
  | cons e rest ih =>
    have ht := risingEntries_tail e rest h
    have hh := risingEntries_head e rest h
    unfold insertEntry
    split
    · rename_i hk
      refine risingEntries_cons _ _ (fun f hf => ?_) h
      rcases List.mem_cons.1 hf with rfl | hf
      · exact hk
      · exact Nat.lt_trans hk (hh f hf)
    · split
      · rename_i hk
        exact risingEntries_cons _ _ (fun f hf => hk ▸ hh f hf) ht
      · rename_i h1 h2
        refine risingEntries_cons _ _ (fun f hf => ?_) (ih ht)
        rcases mem_insertEntry k v rest f hf with rfl | hf
        · simp only; omega
        · exact hh f hf

omit [DecidableEq α] in
theorem risingEntries_eraseEntry (k : Nat) (l : List (Nat × α)) (h : risingEntries l = true) :
    risingEntries (eraseEntry k l) = true := by
  induction l with
  | nil => rfl
  | cons e rest ih =>
    have ht := risingEntries_tail e rest h
    unfold eraseEntry
    split
    · exact ih ht
    · exact risingEntries_cons _ _ (fun f hf => risingEntries_head e rest h f (mem_eraseEntry k rest f hf)) (ih ht)

/-- A write keeps the canonical form. -/
theorem Table.set_wf (t : Table α) (dflt : Nat → α) (k : Nat) (v : α) (h : t.wf dflt = true) :
    (t.set dflt k v).wf dflt = true := by
  simp only [Table.wf, Bool.and_eq_true, List.all_eq_true] at h
  unfold Table.set
  split
  · simp only [Table.wf, Bool.and_eq_true, List.all_eq_true]
    exact ⟨risingEntries_eraseEntry k _ h.1, fun e he => h.2 e (mem_eraseEntry k _ e he)⟩
  · rename_i hv
    simp only [Table.wf, Bool.and_eq_true, List.all_eq_true]
    refine ⟨risingEntries_insertEntry k v _ h.1, fun e he => ?_⟩
    rcases mem_insertEntry k v _ e he with rfl | he
    · simpa using hv
    · exact h.2 e he

omit [DecidableEq α] in
/-- A filtered map that keeps the numbers of a rising list keeps it rising. -/
theorem risingEntries_filterMap {β : Type} (l : List (Nat × α)) (f : Nat × α → Option (Nat × β))
    (hf : ∀ e g, f e = some g → g.1 = e.1) (h : risingEntries l = true) :
    risingEntries (l.filterMap f) = true := by
  induction l with
  | nil => rfl
  | cons e rest ih =>
    have ht := ih (risingEntries_tail e rest h)
    cases he : f e with
    | none => simpa [List.filterMap_cons, he] using ht
    | some g =>
      simp only [List.filterMap_cons, he]
      refine risingEntries_cons _ _ (fun d hd => ?_) ht
      obtain ⟨c, hc, hcd⟩ := List.mem_filterMap.1 hd
      have h1 := hf e g he
      have h2 := hf c d hcd
      have := risingEntries_head e rest h c hc
      omega

/-- Rewriting the listed records keeps the canonical form. -/
theorem Table.mapListed_wf (t : Table α) (dflt : Nat → α) (f : Nat → α → α) (h : t.wf dflt = true) :
    (t.mapListed dflt f).wf dflt = true := by
  simp only [Table.wf, Bool.and_eq_true, List.all_eq_true] at h ⊢
  constructor
  · refine risingEntries_filterMap _ _ (fun e g hg => ?_) h.1
    split at hg
    · simp at hg
    · cases hg; rfl
  · intro e he
    simp only [Table.mapListed, List.mem_filterMap] at he
    obtain ⟨d, _, hd⟩ := he
    split at hd
    · simp at hd
    · rename_i hne
      cases hd
      simpa using hne

/-- Reading a canonical store whose listed records are rewritten by a map that keeps the default. -/
theorem Table.get_mapListed (t : Table α) (dflt : Nat → α) (f : Nat → α → α) (k : Nat) (h : t.wf dflt = true)
    (hd : f k (dflt k) = dflt k) : (t.mapListed dflt f).get dflt k = f k (t.get dflt k) := by
  simp only [Table.wf, Bool.and_eq_true] at h
  obtain ⟨h, _⟩ := h
  unfold Table.mapListed Table.get
  dsimp only
  generalize t.entries = l at h
  have hn : ∀ (e g : Nat × α), (if f e.1 e.2 = dflt e.1 then none else some (e.1, f e.1 e.2)) = some g → g.1 = e.1 := by
    intro e g hg
    split at hg
    · simp at hg
    · cases hg; rfl
  induction l with
  | nil => simp [lookupEntry, hd]
  | cons e rest ih =>
    have ih' := ih (risingEntries_tail e rest h)
    by_cases hk : e.1 = k
    · have hr : ∀ d ∈ rest, d.1 ≠ k := fun d hdm => by
        have := risingEntries_head e rest h d hdm
        omega
      simp only [lookupEntry, if_pos hk, Option.getD_some]
      by_cases hv : f e.1 e.2 = dflt e.1
      · rw [List.filterMap_cons]
        simp only [hv, if_true]
        rw [lookupEntry_filterMap_none _ _ _ hn fun d hdm hdk => absurd hdk (hr d hdm)]
        rw [← hk, hv]
        rfl
      · rw [List.filterMap_cons]
        subst hk
        simp [hv, lookupEntry]
    · by_cases hv : f e.1 e.2 = dflt e.1
      · rw [List.filterMap_cons]
        simp only [hv, if_true, lookupEntry, if_neg hk]
        exact ih'
      · rw [List.filterMap_cons]
        simp only [hv, if_false, lookupEntry, if_neg hk]
        exact ih'

/-- The empty store is canonical. -/
theorem Table.empty_wf (dflt : Nat → α) : (Table.empty : Table α).wf dflt = true := rfl

omit [DecidableEq α] in
/-- The entries of a store formed by a function over a range, from a first number on. -/
theorem risingEntries_range (f : Nat → Option (Nat × α)) (hf : ∀ k g, f k = some g → g.1 = k) (a n : Nat) :
    risingEntries ((List.range' a n).filterMap f) = true := by
  induction n generalizing a with
  | zero => rfl
  | succ n ih =>
    rw [List.range'_succ, List.filterMap_cons]
    cases ha : f a with
    | none => exact ih (a + 1)
    | some g =>
      refine risingEntries_cons _ _ (fun d hd => ?_) (ih (a + 1))
      obtain ⟨c, hc, hcd⟩ := List.mem_filterMap.1 hd
      have h1 := hf a g ha
      have h2 := hf c d hcd
      have := (List.mem_range'_1.1 hc).1
      omega

/-- A store formed by a function is canonical. -/
theorem Table.ofFn_wf (dflt : Nat → α) (n : Nat) (f : Nat → α) : (Table.ofFn dflt n f).wf dflt = true := by
  simp only [Table.wf, Bool.and_eq_true, List.all_eq_true]
  constructor
  · simp only [Table.ofFn, List.range_eq_range']
    refine risingEntries_range _ (fun k g hg => ?_) 0 n
    split at hg
    · simp at hg
    · cases hg; rfl
  · intro e he
    simp only [Table.ofFn, List.mem_filterMap] at he
    obtain ⟨d, _, hd⟩ := he
    split at hd
    · simp at hd
    · rename_i hne
      cases hd
      simpa using hne

/-- Two canonical stores that read alike are the same list. -/
theorem Table.eq_of_get (t u : Table α) (dflt : Nat → α) (ht : t.wf dflt = true) (hu : u.wf dflt = true)
    (h : ∀ k, t.get dflt k = u.get dflt k) : t = u := by
  suffices key : ∀ l m : List (Nat × α), risingEntries l = true → (∀ e ∈ l, e.2 ≠ dflt e.1) → risingEntries m = true →
      (∀ e ∈ m, e.2 ≠ dflt e.1) → (∀ k, (lookupEntry k l).getD (dflt k) = (lookupEntry k m).getD (dflt k)) → l = m by
    simp only [Table.wf, Bool.and_eq_true, List.all_eq_true, bne_iff_ne] at ht hu
    cases t; cases u
    exact congrArg _ (key _ _ ht.1 ht.2 hu.1 hu.2 h)
  have first : ∀ (e : Nat × α) (l m : List (Nat × α)), e.2 ≠ dflt e.1 → (∀ f ∈ m, e.1 < f.1) →
      (∀ k, (lookupEntry k (e :: l)).getD (dflt k) = (lookupEntry k m).getD (dflt k)) → False := by
    intro e l m he hm h
    have := h e.1
    rw [lookupEntry_none_of_lt _ _ hm] at this
    simp [lookupEntry] at this
    exact he this
  intro l
  induction l with
  | nil =>
    intro m _ _ _ hd h
    cases m with
    | nil => rfl
    | cons f m => exact (first f m [] (hd f (by simp)) (by simp) fun k => (h k).symm).elim
  | cons e l ih =>
    intro m hl hle hm hme h
    cases m with
    | nil => exact (first e l [] (hle e (by simp)) (by simp) h).elim
    | cons f m =>
      have el := risingEntries_head e l hl
      have fm := risingEntries_head f m hm
      have hk : e.1 = f.1 := by
        rcases Nat.lt_trichotomy e.1 f.1 with hlt | heq | hgt
        · refine (first e l (f :: m) (hle e (by simp)) (fun g hg => ?_) h).elim
          rcases List.mem_cons.1 hg with rfl | hg
          · exact hlt
          · exact Nat.lt_trans hlt (fm g hg)
        · exact heq
        · refine (first f m (e :: l) (hme f (by simp)) (fun g hg => ?_) fun k => (h k).symm).elim
          rcases List.mem_cons.1 hg with rfl | hg
          · exact hgt
          · exact Nat.lt_trans hgt (el g hg)
      have hv : e.2 = f.2 := by
        have := h e.1
        simpa [lookupEntry, hk] using this
      have hef : e = f := Prod.ext hk hv
      subst hef
      refine congrArg _ (ih m (risingEntries_tail e l hl) (fun g hg => hle g (by simp [hg])) (risingEntries_tail e m hm)
        (fun g hg => hme g (by simp [hg])) fun k => ?_)
      by_cases hke : e.1 = k
      · subst hke
        rw [lookupEntry_none_of_lt _ _ el, lookupEntry_none_of_lt _ _ fm]
      · simpa [lookupEntry, hke] using h k

/-- Of two writes of one number in a canonical store the later stands. -/
theorem Table.set_set (t : Table α) (dflt : Nat → α) (k : Nat) (v w : α) (h : t.wf dflt = true) :
    (t.set dflt k v).set dflt k w = t.set dflt k w := by
  refine Table.eq_of_get _ _ dflt (Table.set_wf _ _ _ _ (Table.set_wf _ _ _ _ h)) (Table.set_wf _ _ _ _ h) fun j => ?_
  simp only [Table.get_set]
  split <;> rfl

end Sys2Proof.Machine
end

