-- ==== Sys2Proof/Laws/Readers.lean ====
section
/-! SUPPORT. What each record reads after each record's write: the value written at its own number, and what it held at
every other. -/

namespace Sys2Proof.Machine

variable (s : State)

@[simp] theorem State.point_setPoint (p : Nat) (v : Point) : (s.setPoint p v).point p = v := by simp [State.point, State.setPoint]
theorem State.point_setPoint_other (p q : Nat) (v : Point) (hq : q ≠ p) : (s.setPoint p v).point q = s.point q := by
  simp [State.point, State.setPoint, Table.get_set_other, hq]

@[simp] theorem State.occupant_setOccupant (k : Nat) (v : Option Nat) : (s.setOccupant k v).occupant k = v := by simp [State.occupant, State.setOccupant]
theorem State.occupant_setOccupant_other (k j : Nat) (v : Option Nat) (hj : j ≠ k) : (s.setOccupant k v).occupant j = s.occupant j := by
  simp [State.occupant, State.setOccupant, Table.get_set_other, hj]

@[simp] theorem State.group_setGroup (g : Nat) (v : Group) : (s.setGroup g v).group g = v := by simp [State.group, State.setGroup]
theorem State.group_setGroup_other (g h : Nat) (v : Group) (hh : h ≠ g) : (s.setGroup g v).group h = s.group h := by
  simp [State.group, State.setGroup, Table.get_set_other, hh]

@[simp] theorem State.curve_setCurve (c : Nat) (v : List Nat) : (s.setCurve c v).curve c = v := by simp [State.curve, State.setCurve]
theorem State.curve_setCurve_other (c d : Nat) (v : List Nat) (hd : d ≠ c) : (s.setCurve c v).curve d = s.curve d := by
  simp [State.curve, State.setCurve, Table.get_set_other, hd]

@[simp] theorem State.source_setSource (n : Nat) (v : Source) : (s.setSource n v).source n = v := by simp [State.source, State.setSource]
theorem State.source_setSource_other (n m : Nat) (v : Source) (hm : m ≠ n) : (s.setSource n v).source m = s.source m := by
  simp [State.source, State.setSource, Table.get_set_other, hm]

@[simp] theorem State.slot_setSlot (k : Nat) (v : Slot) : (s.setSlot k v).slot k = v := by simp [State.slot, State.setSlot]
theorem State.slot_setSlot_other (k j : Nat) (v : Slot) (hj : j ≠ k) : (s.setSlot k v).slot j = s.slot j := by
  simp [State.slot, State.setSlot, Table.get_set_other, hj]

@[simp] theorem State.force_setForce (p : Nat) (v : Option Force) : (s.setForce p v).force p = v := by simp [State.force, State.setForce]
theorem State.force_setForce_other (p q : Nat) (v : Option Force) (hq : q ≠ p) : (s.setForce p v).force q = s.force q := by
  simp [State.force, State.setForce, Table.get_set_other, hq]

@[simp] theorem State.freezeCount_setFreezeCount (g : Nat) (v : Nat) : (s.setFreezeCount g v).freezeCount g = v := by simp [State.freezeCount, State.setFreezeCount]
theorem State.freezeCount_setFreezeCount_other (g h : Nat) (v : Nat) (hh : h ≠ g) : (s.setFreezeCount g v).freezeCount h = s.freezeCount h := by
  simp [State.freezeCount, State.setFreezeCount, Table.get_set_other, hh]

@[simp] theorem State.master_setMaster (m : Nat) (v : Master) : (s.setMaster m v).master m = v := by simp [State.master, State.setMaster]
theorem State.master_setMaster_other (m n : Nat) (v : Master) (hn : n ≠ m) : (s.setMaster m v).master n = s.master n := by
  simp [State.master, State.setMaster, Table.get_set_other, hn]

@[simp] theorem State.line_setLine (l : Nat) (v : Line) : (s.setLine l v).line l = v := by simp [State.line, State.setLine]
theorem State.line_setLine_other (l m : Nat) (v : Line) (hm : m ≠ l) : (s.setLine l v).line m = s.line m := by
  simp [State.line, State.setLine, Table.get_set_other, hm]

@[simp] theorem State.input_setInput (i : Nat) (v : Input) : (s.setInput i v).input i = v := by simp [State.input, State.setInput]
theorem State.input_setInput_other (i j : Nat) (v : Input) (hj : j ≠ i) : (s.setInput i v).input j = s.input j := by
  simp [State.input, State.setInput, Table.get_set_other, hj]

@[simp] theorem State.tile_setTile (t : Nat) (v : Tile) : (s.setTile t v).tile t = v := by simp [State.tile, State.setTile]
theorem State.tile_setTile_other (t u : Nat) (v : Tile) (hu : u ≠ t) : (s.setTile t v).tile u = s.tile u := by
  simp [State.tile, State.setTile, Table.get_set_other, hu]

@[simp] theorem State.link_setLink (l : Nat) (v : Link) : (s.setLink l v).link l = v := by simp [State.link, State.setLink]
theorem State.link_setLink_other (l m : Nat) (v : Link) (hm : m ≠ l) : (s.setLink l v).link m = s.link m := by
  simp [State.link, State.setLink, Table.get_set_other, hm]

@[simp] theorem State.plate_setPlate (p : Nat) (v : Plate) : (s.setPlate p v).plate p = v := by simp [State.plate, State.setPlate]
theorem State.plate_setPlate_other (p q : Nat) (v : Plate) (hq : q ≠ p) : (s.setPlate p v).plate q = s.plate q := by
  simp [State.plate, State.setPlate, Table.get_set_other, hq]

@[simp] theorem State.descriptor_setDescriptor (d : Nat) (v : Descriptor) : (s.setDescriptor d v).descriptor d = v := by simp [State.descriptor, State.setDescriptor]
theorem State.descriptor_setDescriptor_other (d e : Nat) (v : Descriptor) (he : e ≠ d) : (s.setDescriptor d v).descriptor e = s.descriptor e := by
  simp [State.descriptor, State.setDescriptor, Table.get_set_other, he]

@[simp] theorem State.cue_setCue (c : Nat) (v : Cue) : (s.setCue c v).cue c = v := by simp [State.cue, State.setCue]
theorem State.cue_setCue_other (c d : Nat) (v : Cue) (hd : d ≠ c) : (s.setCue c v).cue d = s.cue d := by
  simp [State.cue, State.setCue, Table.get_set_other, hd]

@[simp] theorem State.action_setAction (a : Nat) (v : Action) : (s.setAction a v).action a = v := by simp [State.action, State.setAction]
theorem State.action_setAction_other (a b : Nat) (v : Action) (hb : b ≠ a) : (s.setAction a v).action b = s.action b := by
  simp [State.action, State.setAction, Table.get_set_other, hb]

@[simp] theorem State.list_setList (l : Nat) (v : CueList) : (s.setList l v).list l = v := by simp [State.list, State.setList]
theorem State.list_setList_other (l m : Nat) (v : CueList) (hm : m ≠ l) : (s.setList l v).list m = s.list m := by
  simp [State.list, State.setList, Table.get_set_other, hm]

@[simp] theorem State.slot_setRecord (k : Nat) (c : Contribution) :
    (s.setRecord k c).slot k = ⟨(s.slot k).gen, some c⟩ := by simp [State.setRecord]
theorem State.slot_setRecord_other (k j : Nat) (c : Contribution) (hj : j ≠ k) : (s.setRecord k c).slot j = s.slot j := by
  simp [State.setRecord, State.slot_setSlot_other, hj]

@[simp] theorem State.named_setNamed (o n : Nat) (v : Option Nat) : (s.setNamed o n v).named o n = v := by
  simp [State.named, State.setNamed]

@[simp] theorem State.source_addLive (n : Nat) :
    (s.addLive n).source n = { s.source n with live := (s.source n).live + 1 } := by simp [State.addLive]
@[simp] theorem State.source_subLive (n : Nat) :
    (s.subLive n).source n = { s.source n with live := (s.source n).live - 1 } := by simp [State.subLive]
theorem State.source_addLive_other (n m : Nat) (h : m ≠ n) : (s.addLive n).source m = s.source m := by
  simp [State.addLive, State.source_setSource_other, h]
theorem State.source_subLive_other (n m : Nat) (h : m ≠ n) : (s.subLive n).source m = s.source m := by
  simp [State.subLive, State.source_setSource_other, h]

end Sys2Proof.Machine
end

