-- ==== Sys2Proof/Laws/Words.lean ====
section
/-! SUPPORT. The words of a Level Pool chain (R57), and the return of several slots to FREE (R75), each said once. -/

namespace Sys2Proof.Machine

/-- A chain without a repeated block is written word by word: reading back gives the words written, and the others as
they were (R57). -/
theorem State.word_setWords (s : State) (chain : List Nat) (hn : chain.Nodup) (w : Nat) (vs : List Nat)
    (hw : w + vs.length ≤ 16 * chain.length) (j : Nat) (hj : j < 16 * chain.length) :
    (s.setWords chain w vs).word chain j =
      if w ≤ j ∧ j < w + vs.length then vs.getD (j - w) 0 else s.word chain j := by
  have inj : ∀ a b, a < 16 * chain.length → b < 16 * chain.length →
      chainAddress chain a = chainAddress chain b → a = b := by
    intro a b ha hb h
    unfold chainAddress at h
    have h1 : chain.getD (a/16) 0 = chain.getD (b/16) 0 := by omega
    have h2 : a % 16 = b % 16 := by omega
    have la : a/16 < chain.length := by omega
    have lb : b/16 < chain.length := by omega
    rw [List.getD_eq_getElem?_getD, List.getD_eq_getElem?_getD,
      List.getElem?_eq_getElem la, List.getElem?_eq_getElem lb] at h1
    have := (List.getElem_inj hn).1 (Option.some.inj (by simpa using h1))
    omega
  induction vs generalizing s w with
  | nil =>
    rw [State.setWords, if_neg fun h => by have := h.2; simp only [List.length_nil, Nat.add_zero] at this; omega]
  | cons v vs ih =>
    simp only [List.length_cons] at hw ⊢
    rw [State.setWords, ih _ _ (by omega)]
    by_cases h1 : j = w
    · subst h1
      rw [if_neg (by omega), if_pos (by omega)]
      simp [State.word, State.setWord]
    · have : (s.setWord chain w v).word chain j = s.word chain j := by
        unfold State.word State.setWord
        exact Table.get_set_other _ _ _ _ _ (fun h => h1 (inj _ _ hj (by omega) h))
      rw [this]
      by_cases h2 : w + 1 ≤ j ∧ j < w + 1 + vs.length
      · rw [if_pos h2, if_pos (by omega)]
        have : j - w = (j - (w+1)) + 1 := by omega
        rw [this]; simp
      · rw [if_neg h2, if_neg (by omega)]

/-- Writing words changes the pool alone. -/
theorem State.setWords_frame (s : State) (chain w vs) :
    s.setWords chain w vs = { s with pool := (s.setWords chain w vs).pool } := by
  induction vs generalizing s w with
  | nil => rfl
  | cons v vs ih => rw [State.setWords, ih]; rfl

/-- A freed slot is FREE (R75). -/
theorem State.free_slot (s : State) (k) : ((s.free k).slot k).record = none := by
  unfold State.free
  split
  · assumption
  · simp

theorem State.free_queue (s : State) (k) : (s.free k).queue = s.queue := by
  unfold State.free
  split
  · rfl
  · dsimp only; simp; split <;> rfl

theorem State.free_other (s : State) (k j) (hj : j ≠ k) : (s.free k).slot j = s.slot j := by
  unfold State.free
  split
  · rfl
  · dsimp only; rw [State.slot_setSlot_other _ _ _ _ hj]; split <;> rfl

theorem State.each_free_queue (s : State) (l) : (s.each State.free l).queue = s.queue := by
  induction l generalizing s with
  | nil => rfl
  | cons k ks ih => rw [State.each, ih, State.free_queue]

theorem State.each_free_other (s : State) (l j) (hj : j ∉ l) : (s.each State.free l).slot j = s.slot j := by
  induction l generalizing s with
  | nil => rfl
  | cons k ks ih => simp at hj; rw [State.each, ih _ hj.2, State.free_other _ _ _ hj.1]

/-- Each of several freed slots is FREE, and a FREE slot stays FREE. -/
theorem State.each_free_slot (s : State) (l j) (hj : j ∈ l ∨ (s.slot j).record = none) :
    ((s.each State.free l).slot j).record = none := by
  induction l generalizing s with
  | nil => simpa [State.each] using hj
  | cons k ks ih =>
    rw [State.each]
    apply ih
    by_cases h : j = k
    · subst h; exact .inr (State.free_slot _ _)
    · rw [State.free_other _ _ _ h]; simpa [h] using hj

end Sys2Proof.Machine
end

