-- ==== Sys2Proof/Laws/Firing.lean ====
section
/-! SUPPORT. What the actions of a firing cue do (R179), said once: which items of state they may change, and which
entries they add to the Change Queue; and that the rest of an evaluation leaves none of it outstanding. -/

namespace Sys2Proof.Machine

/-- `t` is `s` but for what the actions of a firing cue change, and its queue is that of `s` with `new` behind it: at most
`n` entries, each of the cue and the source given, due at the next frame start, with consecutive arrival numbers. -/
structure Fired (s t : State) (source cue n : Nat) (new : List Entry) : Prop where
  frame : t = { s with
        slots := t.slots
        pool := t.pool
        poolFree := t.poolFree
        sources := t.sources
        queue := t.queue
        arrival := t.arrival
        lastFailure := t.lastFailure
        events := t.events }
  queue : t.queue = s.queue ++ new
  length : new.length ≤ n
  arrival : t.arrival = s.arrival + BitVec.ofNat 32 new.length
  entries : ∀ (j : Nat) (e : Entry), new[j]? = some e → e.source = source ∧ e.origin = .cue cue ∧
    e.effective = s.timer.counter + 1 ∧ e.arrival = s.arrival + BitVec.ofNat 32 j

theorem Fired.none {s t : State} {source cue : Nat} (n : Nat)
    (h : t = { s with
        slots := t.slots
        pool := t.pool
        poolFree := t.poolFree
        sources := t.sources
        queue := s.queue
        arrival := s.arrival
        lastFailure := t.lastFailure
        events := t.events }) : Fired s t source cue n [] := by
  have q : t.queue = s.queue := by rw [h]
  have a : t.arrival = s.arrival := by rw [h]
  exact ⟨by rw [q, a]; exact h, by rw [q, List.append_nil], Nat.zero_le _, by rw [a]; simp, by intro j e he; simp at he⟩

theorem Fired.one {s t : State} {source cue : Nat} {e : Entry}
    (h : t = { s with
        slots := t.slots
        pool := t.pool
        poolFree := t.poolFree
        sources := t.sources
        queue := s.queue ++ [e]
        arrival := s.arrival + 1
        lastFailure := t.lastFailure
        events := t.events })
    (hs : e.source = source) (ho : e.origin = .cue cue) (he : e.effective = s.timer.counter + 1)
    (ha : e.arrival = s.arrival) : Fired s t source cue 1 [e] := by
  have q : t.queue = s.queue ++ [e] := by rw [h]
  have a : t.arrival = s.arrival + 1 := by rw [h]
  refine ⟨by rw [q, a]; exact h, q, Nat.le_refl _, a, ?_⟩
  intro j x hx
  cases j with
  | zero =>
    obtain rfl : e = x := by simpa using hx
    exact ⟨hs, ho, he, by rw [ha]; simp⟩
  | succ j => simp at hx

theorem Fired.trans {s t u : State} {source cue m n : Nat} {a b : List Entry} (h : Fired s t source cue m a)
    (g : Fired t u source cue n b) : Fired s u source cue (m + n) (a ++ b) := by
  have ht : t.timer = s.timer := by rw [h.frame]
  refine ⟨by rw [g.frame]; rw [h.frame], by rw [g.queue, h.queue, List.append_assoc], ?_, ?_, ?_⟩
  · rw [List.length_append]
    exact Nat.add_le_add h.length g.length
  · rw [g.arrival, h.arrival, List.length_append, BitVec.ofNat_add, BitVec.add_assoc]
  · intro j e he
    by_cases hj : j < a.length
    · exact h.entries j e (by rwa [List.getElem?_append_left hj] at he)
    · rw [List.getElem?_append_right (by omega)] at he
      obtain ⟨h1, h2, h3, h4⟩ := g.entries _ e he
      refine ⟨h1, h2, by rw [h3, ht], ?_⟩
      rw [h4, h.arrival, BitVec.add_assoc, ← BitVec.ofNat_add, Nat.add_sub_cancel' (by omega)]

theorem Fired.cue {s t : State} {source cue n : Nat} {new : List Entry} (h : Fired s t source cue n new) (c : Nat) :
    t.cue c = s.cue c := by
  unfold State.cue
  rw [h.frame]

theorem Fired.list {s t : State} {source cue n : Nat} {new : List Entry} (h : Fired s t source cue n new) (l : Nat) :
    t.list l = s.list l := by
  unfold State.list
  rw [h.frame]

/-- A reservation places one TAKE entry and changes the table, the pool and the live counts (R62). -/
theorem State.reserve_frame (s : State) (k : Nat) (c : Contribution) (ts : List Nat) :
    ∃ h, s.reserve k c ts =
      { s with
        slots := (s.reserve k c ts).slots
        pool := (s.reserve k c ts).pool
        poolFree := (s.reserve k c ts).poolFree
        sources := (s.reserve k c ts).sources
        queue := s.queue ++ [⟨c.owner, c.origin, s.arrival, c.effective, .take h, false⟩]
        arrival := s.arrival + 1 } := by
  unfold State.reserve
  simp only
  rw [State.setWords_frame]
  exact ⟨_, rfl⟩

/-- An action of a firing cue: the one entry it places, or none where it is a TAKE that is dropped. -/
theorem Fired.fireAction (s : State) (source cue a : Nat) :
    ∃ new, Fired s (s.fireAction source cue a) source cue 1 new ∧
      ((∀ t, s.action a ≠ .take t) → new.map (fun e => some e.body) = [(s.action a).body source]) := by
  unfold State.fireAction
  split
  · rename_i t ht
    refine (?_ : ∃ new, Fired s (s.fireTake source cue t) source cue 1 new).imp
      fun new h => ⟨h, fun hn => absurd ht (hn t)⟩
    unfold State.fireTake
    split
    · exact ⟨_, .none 1 rfl⟩
    · split
      · exact ⟨_, .none 1 rfl⟩
      · exact ⟨_, .none 1 rfl⟩
      · rename_i k _ _
        obtain ⟨h, hr⟩ := State.reserve_frame s k (newContribution source t.name
          (firedPriority (s.source source) t.priority) t.selector (.spec t.value) t.fadeIn t.fadeOut t.policy (.cue cue)
          (s.timer.counter + 1)) []
        exact ⟨_, .one hr rfl rfl rfl rfl⟩
  · rename_i x hx
    have hb : ∃ b, (s.action a).body source = some b := by
      cases h : s.action a with
      | take t => exact absurd h (hx t)
      | _ => exact ⟨_, rfl⟩
    obtain ⟨b, hb⟩ := hb
    rw [hb]
    exact ⟨_, .one (e := ⟨source, .cue cue, s.arrival, s.timer.counter + 1, b, false⟩) rfl rfl rfl rfl rfl, fun _ => rfl⟩

/-- The actions of a firing cue, in order. -/
theorem Fired.each (s : State) (source cue : Nat) (l : List Nat) :
    ∃ new, Fired s (s.each (fun t a => t.fireAction source cue a) l) source cue l.length new ∧
      ((∀ a ∈ l, ∀ t, s.action a ≠ .take t) →
        new.map (fun e => some e.body) = l.map fun a => (s.action a).body source) := by
  induction l generalizing s with
  | nil => exact ⟨[], .none 0 rfl, fun _ => rfl⟩
  | cons k ks ih =>
    obtain ⟨x, hx, bx⟩ := Fired.fireAction s source cue k
    obtain ⟨y, hy, yb⟩ := ih (s.fireAction source cue k)
    have same : ∀ a, (s.fireAction source cue k).action a = s.action a := fun a => by
      unfold State.action
      rw [hx.frame]
    refine ⟨x ++ y, by rw [List.length_cons, Nat.add_comm]; exact hx.trans hy, fun h => ?_⟩
    rw [List.map_append, bx (h k (.head _)), yb fun a ha t => by rw [same]; exact h a (.tail _ ha) t]
    simp [same]

/-! ### The end of an evaluation (R178, R181) -/

theorem State.evaluateOnce_none (s : State) (h : s.work.evaluation = none) : s.evaluateOnce = (s, false) := by
  simp [State.evaluateOnce, h]

/-- With nothing of it outstanding, the rest of the evaluation changes nothing. -/
theorem State.evaluateAll_none (s : State) (n : Nat) (h : s.work.evaluation = none) : s.evaluateAll n = s := by
  induction n with
  | zero => rfl
  | succ n ih => rw [State.evaluateAll, State.evaluateOnce_none s h, ih]

/-- The turns an evaluation has left at most: 16 firings and a stop of its list, and as many of the list that follows. -/
def turnsLeft : Option Evaluation → Nat
  | none => 0
  | some e => max 1 (17 - e.fired) + if e.list = 0 then 17 else 0

theorem turnsLeft_after (e : Evaluation) : turnsLeft e.after + 1 ≤ turnsLeft (some e) := by
  unfold Evaluation.after
  split
  · rename_i h
    show max 1 (17 - 0) + 0 + 1 ≤ max 1 (17 - e.fired) + if e.list = 0 then 17 else 0
    rw [if_pos h]
    omega
  · show 0 + 1 ≤ max 1 (17 - e.fired) + _
    omega

/-- A turn is one fewer that is left. -/
theorem State.evaluateOnce_turns (s : State) : turnsLeft s.evaluateOnce.1.work.evaluation ≤ turnsLeft s.work.evaluation - 1 := by
  unfold State.evaluateOnce
  split
  · rename_i h
    simp [h, turnsLeft]
  · rename_i e h
    have stop := turnsLeft_after e
    have fire : e.fired < 16 → turnsLeft (some ⟨e.list, e.fired + 1⟩) + 1 ≤ turnsLeft (some e) := by
      intro hf
      simp only [turnsLeft]
      omega
    rw [h]
    split
    · exact Nat.le_sub_of_add_le stop
    · split
      · exact Nat.le_sub_of_add_le stop
      · split
        · exact Nat.le_sub_of_add_le stop
        · rename_i hf
          split
          · exact Nat.le_sub_of_add_le stop
          · exact Nat.le_sub_of_add_le (fire (Nat.lt_of_not_le hf))

/-- The rest of an evaluation leaves none of it outstanding. -/
theorem State.evaluateAll_done (s : State) : (s.evaluateAll 40).work.evaluation = none := by
  have left : ∀ (n : Nat) (t : State), turnsLeft t.work.evaluation ≤ n → (t.evaluateAll n).work.evaluation = none := by
    intro n
    induction n with
    | zero =>
      intro t h
      cases he : t.work.evaluation with
      | none => exact he
      | some e =>
        have := turnsLeft_after e
        rw [he] at h
        omega
    | succ n ih =>
      intro t h
      have := State.evaluateOnce_turns t
      exact ih _ (by omega)
  refine left 40 s ?_
  cases s.work.evaluation with
  | none => exact Nat.zero_le _
  | some e =>
    simp only [turnsLeft]
    split <;> omega

end Sys2Proof.Machine
end

