-- ==== Sys2Proof/Laws/Kept.lean ====
section
/-! SUPPORT. What the shared operations leave alone: the commands that wait, the latest time, the device state, the Frame
Timer, the event mask, the bound of the Change Queue, the bound of the event counts, the bounds of the groups' strides, the
canonical form of the stores and the agreement of the occupancy map with the bindings. `Kept` says it once, and each
operation has one lemma. At the end, what going on with a frame start's work leaves of the plates' marks. -/

-- One thread: checked in parallel, this file's theorems need more thread stacks than the memory limit allows.
set_option Elab.async false

namespace Sys2Proof.Machine

/-- From `s` to `t` the waiting commands, the latest time, the device state, the Frame Timer and the event mask are the
same, the Change Queue has not grown, no event count has passed 255 that had not, the groups' strides stay within 1 to
64, the stores stay canonical, and the occupancy map goes on to agree with the bindings. -/
structure Kept (s t : State) : Prop where
  pending : t.pending = s.pending
  mask : t.mask = s.mask
  timer : t.timer = s.timer
  device : t.device = s.device
  now : t.now = s.now
  queue : t.queue.length ≤ s.queue.length
  events : ∀ k, (t.event k).count ≤ max 255 (s.event k).count
  strides : Strided s → Strided t
  canonical : Canonical s → Canonical t
  occupancy : Canonical s → OccupancyAgrees s → OccupancyAgrees t

/-- The agreement of the occupancy map with the bindings (R21) is of these two stores alone. -/
theorem OccupancyAgrees.of_maps {s t : State} (hp : t.points = s.points) (ho : t.occupancy = s.occupancy)
    (h : OccupancyAgrees s) : OccupancyAgrees t := fun p k => by
  have := h p k
  unfold State.point State.occupant at this ⊢
  rwa [hp, ho]

/-- The strides are of the Group Table alone. -/
theorem Strided.of_groups {s t : State} (hg : t.groups = s.groups) (h : Strided s) : Strided t := fun g hk => by
  have := h g hk
  unfold State.group at this ⊢
  rwa [hg]

theorem Kept.refl (s : State) : Kept s s :=
  ⟨rfl, rfl, rfl, rfl, rfl, Nat.le_refl _, fun _ => Nat.le_max_right _ _, id, id, fun _ => id⟩

theorem Kept.trans {s t u : State} (h : Kept s t) (g : Kept t u) : Kept s u :=
  ⟨g.pending.trans h.pending, g.mask.trans h.mask, g.timer.trans h.timer, g.device.trans h.device, g.now.trans h.now,
    Nat.le_trans g.queue h.queue, fun k => by
    have := h.events k
    have := g.events k
    omega, fun c => g.strides (h.strides c), fun c => g.canonical (h.canonical c), fun c a => g.occupancy (h.canonical c) (h.occupancy c a)⟩

/-- As `trans`, the later part first. -/
theorem Kept.after {s t u : State} (g : Kept t u) (h : Kept s t) : Kept s u := h.trans g

/-- An update of other fields. -/
theorem Kept.of_eq {s t : State} (hp : t.pending = s.pending) (hm : t.mask = s.mask) (ht : t.timer = s.timer)
    (hd : t.device = s.device) (hn : t.now = s.now) (hq : t.queue = s.queue) (he : t.events = s.events)
    (hc : Canonical s → Canonical t := by
      exact fun h => ⟨h.points, h.occupancy, h.groups, h.curves, h.results, h.sources, h.slots, h.names, h.pool, h.forces, h.freezes,
        h.masters, h.lines, h.inputs, h.tiles, h.links, h.plates, h.descriptors, h.cues, h.actions, h.lists, h.events⟩)
    (ho : Canonical s → OccupancyAgrees s → OccupancyAgrees t := by exact fun _ h => .of_maps rfl rfl h)
    (hg : t.groups = s.groups := by rfl) : Kept s t :=
  ⟨hp, hm, ht, hd, hn, Nat.le_of_eq (congrArg List.length hq), fun k => by unfold State.event; rw [he]; exact Nat.le_max_right _ _, .of_groups hg, hc, ho⟩

/-- A queue that is no longer than before, all else as in `of_eq`. -/
theorem Kept.of_le {s t : State} (hp : t.pending = s.pending) (hm : t.mask = s.mask) (ht : t.timer = s.timer)
    (hd : t.device = s.device) (hn : t.now = s.now) (hq : t.queue.length ≤ s.queue.length) (he : t.events = s.events)
    (hc : Canonical s → Canonical t := by
      exact fun h => ⟨h.points, h.occupancy, h.groups, h.curves, h.results, h.sources, h.slots, h.names, h.pool, h.forces, h.freezes,
        h.masters, h.lines, h.inputs, h.tiles, h.links, h.plates, h.descriptors, h.cues, h.actions, h.lists, h.events⟩)
    (ho : Canonical s → OccupancyAgrees s → OccupancyAgrees t := by exact fun _ h => .of_maps rfl rfl h)
    (hg : t.groups = s.groups := by rfl) : Kept s t :=
  ⟨hp, hm, ht, hd, hn, hq, fun k => by unfold State.event; rw [he]; exact Nat.le_max_right _ _, .of_groups hg, hc, ho⟩

theorem Kept.of_events_empty {s t : State} (hp : t.pending = s.pending) (hm : t.mask = s.mask) (ht : t.timer = s.timer)
    (hd : t.device = s.device) (hn : t.now = s.now) (hq : t.queue.length ≤ s.queue.length) (he : t.events = .empty)
    (hc : Canonical s → Canonical t := by
      exact fun h => ⟨h.points, h.occupancy, h.groups, h.curves, h.results, h.sources, h.slots, h.names, h.pool, h.forces, h.freezes,
        h.masters, h.lines, h.inputs, h.tiles, h.links, h.plates, h.descriptors, h.cues, h.actions, h.lists, h.events⟩)
    (ho : Canonical s → OccupancyAgrees s → OccupancyAgrees t := by exact fun _ h => .of_maps rfl rfl h)
    (hg : t.groups = s.groups := by rfl) : Kept s t :=
  ⟨hp, hm, ht, hd, hn, hq, fun k => by simp [State.event, he, Table.get, lookupEntry, EventCell.por], .of_groups hg, hc, ho⟩

theorem Kept.ite {c : Prop} [Decidable c] {s t u : State} (h : Kept s t) (g : Kept s u) :
    Kept s (if c then t else u) := by
  split
  · exact h
  · exact g

theorem saturate_le (limit n : Nat) : saturate limit n ≤ limit := by
  unfold saturate
  split <;> omega

/-- A raising sets the kind's flag and takes its count up by one to at most 255; the other kinds stay (R190). -/
theorem State.event_raise (s : State) (k : EventKind) (j : Nat) :
    (s.raise k).event j = if j = k.number then ⟨true, saturate 255 (s.event j).count⟩ else s.event j := by
  unfold State.event
  rw [State.raise_events]
  split
  · rename_i h
    subst h
    exact Table.get_set_self_listed _ _ _ _ (by simp [EventCell.por])
  · rename_i h
    exact Table.get_set_other _ _ _ _ _ h

theorem Kept.raise (s : State) (k : EventKind) : Kept s (s.raise k) :=
  ⟨rfl, rfl, rfl, rfl, rfl, Nat.le_refl _, fun j => by
    rw [State.event_raise]
    split
    · exact Nat.le_trans (saturate_le _ _) (Nat.le_max_left _ _)
    · exact Nat.le_max_right _ _, .of_groups rfl, fun h => { h with events := Table.set_wf _ _ _ _ h.events },
    fun _ h => .of_maps rfl rfl h⟩

/-- A fold of updates keeps what each keeps. -/
theorem Kept.each {f : State → Nat → State} (h : ∀ s k, Kept s (f s k)) (s : State) (l : List Nat) :
    Kept s (s.each f l) := by
  induction l generalizing s with
  | nil => exact .refl s
  | cons k ks ih => exact (h s k).trans (ih (f s k))

/-! ### Single updates -/

theorem Kept.setPoint (s : State) (p v) (hb : v.binding = (s.point p).binding) : Kept s (s.setPoint p v) :=
  .of_eq rfl rfl rfl rfl rfl rfl rfl (fun h => { h with points := Table.set_wf _ _ _ _ h.points }) fun _ h q k => by
    by_cases hq : q = p
    · subst hq
      rw [State.point_setPoint, hb]
      exact h q k
    · rw [State.point_setPoint_other _ _ _ _ hq]
      exact h q k
theorem Kept.setGroup (s : State) (p v) (hv : 1 ≤ v.stride ∧ v.stride ≤ 64) : Kept s (s.setGroup p v) :=
  ⟨rfl, rfl, rfl, rfl, rfl, Nat.le_refl _, fun _ => Nat.le_max_right _ _, fun h g hk => by
    by_cases hg : g = p
    · rw [hg, State.group_setGroup]
      exact hv
    · rw [State.group_setGroup_other _ _ _ _ hg]
      exact h g hk, fun h => { h with groups := Table.set_wf _ _ _ _ h.groups }, fun _ h => .of_maps rfl rfl h⟩
theorem Kept.setCurve (s : State) (p v) : Kept s (s.setCurve p v) :=
  .of_eq rfl rfl rfl rfl rfl rfl rfl fun h => { h with curves := Table.set_wf _ _ _ _ h.curves }
theorem Kept.setSource (s : State) (p v) : Kept s (s.setSource p v) :=
  .of_eq rfl rfl rfl rfl rfl rfl rfl fun h => { h with sources := Table.set_wf _ _ _ _ h.sources }
theorem Kept.setSlot (s : State) (p v) : Kept s (s.setSlot p v) :=
  .of_eq rfl rfl rfl rfl rfl rfl rfl fun h => { h with slots := Table.set_wf _ _ _ _ h.slots }
theorem Kept.setForce (s : State) (p v) : Kept s (s.setForce p v) :=
  .of_eq rfl rfl rfl rfl rfl rfl rfl fun h => { h with forces := Table.set_wf _ _ _ _ h.forces }
theorem Kept.setFreezeCount (s : State) (p v) : Kept s (s.setFreezeCount p v) :=
  .of_eq rfl rfl rfl rfl rfl rfl rfl fun h => { h with freezes := Table.set_wf _ _ _ _ h.freezes }
theorem Kept.setMaster (s : State) (p v) : Kept s (s.setMaster p v) :=
  .of_eq rfl rfl rfl rfl rfl rfl rfl fun h => { h with masters := Table.set_wf _ _ _ _ h.masters }
theorem Kept.setLine (s : State) (p v) : Kept s (s.setLine p v) :=
  .of_eq rfl rfl rfl rfl rfl rfl rfl fun h => { h with lines := Table.set_wf _ _ _ _ h.lines }
theorem Kept.setInput (s : State) (p v) : Kept s (s.setInput p v) :=
  .of_eq rfl rfl rfl rfl rfl rfl rfl fun h => { h with inputs := Table.set_wf _ _ _ _ h.inputs }
theorem Kept.setTile (s : State) (p v) : Kept s (s.setTile p v) :=
  .of_eq rfl rfl rfl rfl rfl rfl rfl fun h => { h with tiles := Table.set_wf _ _ _ _ h.tiles }
theorem Kept.setLink (s : State) (p v) : Kept s (s.setLink p v) :=
  .of_eq rfl rfl rfl rfl rfl rfl rfl fun h => { h with links := Table.set_wf _ _ _ _ h.links }
theorem Kept.setPlate (s : State) (p v) : Kept s (s.setPlate p v) :=
  .of_eq rfl rfl rfl rfl rfl rfl rfl fun h => { h with plates := Table.set_wf _ _ _ _ h.plates }
theorem Kept.setDescriptor (s : State) (p v) : Kept s (s.setDescriptor p v) :=
  .of_eq rfl rfl rfl rfl rfl rfl rfl fun h => { h with descriptors := Table.set_wf _ _ _ _ h.descriptors }
theorem Kept.setCue (s : State) (p v) : Kept s (s.setCue p v) :=
  .of_eq rfl rfl rfl rfl rfl rfl rfl fun h => { h with cues := Table.set_wf _ _ _ _ h.cues }
theorem Kept.setAction (s : State) (p v) : Kept s (s.setAction p v) :=
  .of_eq rfl rfl rfl rfl rfl rfl rfl fun h => { h with actions := Table.set_wf _ _ _ _ h.actions }
theorem Kept.setList (s : State) (p v) : Kept s (s.setList p v) :=
  .of_eq rfl rfl rfl rfl rfl rfl rfl fun h => { h with lists := Table.set_wf _ _ _ _ h.lists }
theorem Kept.setNamed (s : State) (o n v) : Kept s (s.setNamed o n v) :=
  .of_eq rfl rfl rfl rfl rfl rfl rfl fun h => { h with names := Table.set_wf _ _ _ _ h.names }
theorem Kept.setWork (s : State) (v) : Kept s (s.setWork v) := .of_eq rfl rfl rfl rfl rfl rfl rfl
theorem Kept.setRecord (s : State) (k v) : Kept s (s.setRecord k v) :=
  .of_eq rfl rfl rfl rfl rfl rfl rfl fun h => { h with slots := Table.set_wf _ _ _ _ h.slots }
theorem Kept.addLive (s : State) (k) : Kept s (s.addLive k) :=
  .of_eq rfl rfl rfl rfl rfl rfl rfl fun h => { h with sources := Table.set_wf _ _ _ _ h.sources }
theorem Kept.subLive (s : State) (k) : Kept s (s.subLive k) :=
  .of_eq rfl rfl rfl rfl rfl rfl rfl fun h => { h with sources := Table.set_wf _ _ _ _ h.sources }
theorem Kept.setWord (s : State) (c w v) : Kept s (s.setWord c w v) :=
  .of_eq rfl rfl rfl rfl rfl rfl rfl fun h => { h with pool := Table.set_wf _ _ _ _ h.pool }
theorem Kept.withdrawTake (s : State) (h) : Kept s (s.withdrawTake h) :=
  .of_le rfl rfl rfl rfl rfl (List.length_filter_le _ _) rfl

theorem Kept.setWords (s : State) (chain : List Nat) (w : Nat) (vs : List Nat) : Kept s (s.setWords chain w vs) := by
  induction vs generalizing s w with
  | nil => exact .refl s
  | cons v vs ih => exact (Kept.setWord s chain w v).trans (ih _ _)

theorem Kept.replyWith (s : State) (c st b f) : Kept s (s.replyWith c st b f) := .of_eq rfl rfl rfl rfl rfl rfl rfl
theorem Kept.latchReply (s : State) : Kept s s.latchReply := .of_eq rfl rfl rfl rfl rfl rfl rfl
theorem Kept.setEvaluation (s : State) (e) : Kept s (s.setEvaluation e) := .of_eq rfl rfl rfl rfl rfl rfl rfl

/-! ### Contributions and sources -/

theorem Kept.free (s : State) (k : Nat) : Kept s (s.free k) := by
  unfold State.free
  split
  · exact .refl s
  · refine .after (Kept.setSlot _ _ _) (.after (Kept.subLive _ _) ?_)
    exact .after (t := if _ then _ else _) (.of_eq rfl rfl rfl rfl rfl rfl rfl) (.ite (Kept.setNamed _ _ _ _) (.refl _))

theorem Kept.release (s : State) (k L : Nat) : Kept s (s.release k L) := by
  unfold State.release
  split
  · exact .refl s
  · rename_i c _
    dsimp only
    have h : Kept s (if c.name ≠ 0 then (s.setWords c.chain 0 (s.releaseLevels c)).setNamed c.owner c.name none
        else s.setWords c.chain 0 (s.releaseLevels c)) :=
      .ite ((Kept.setWords _ _ _ _).trans (Kept.setNamed _ _ _ _)) (Kept.setWords _ _ _ _)
    exact .ite (.after (Kept.free _ _) (.after (Kept.setRecord _ _ _) h)) (.after (Kept.setRecord _ _ _) h)

theorem Kept.recordFailure (s : State) (f : Failure) : Kept s (s.recordFailure f) :=
  .after (t := (s.raise .applyFail).setSource f.source _) (.of_eq rfl rfl rfl rfl rfl rfl rfl)
    ((Kept.raise s .applyFail).trans (Kept.setSource _ _ _))

theorem Kept.drop (s : State) (e : Entry) (r : FailReason) : Kept s (s.drop e r) := Kept.recordFailure _ _

theorem Kept.loadLiveness (s : State) (n r : Nat) : Kept s (s.loadLiveness n r) := by
  exact Kept.setSource _ _ _

theorem Kept.reloadSource (s : State) (n : Nat) : Kept s (s.reloadSource n) := by
  unfold State.reloadSource
  dsimp only
  exact .ite (.after (Kept.raise _ _) (.after (Kept.setSource _ _ _) (Kept.loadLiveness _ _ _)))
    (Kept.loadLiveness _ _ _)

theorem Kept.loseSource (s : State) (n : Nat) : Kept s (s.loseSource n) := by
  unfold State.loseSource
  refine Kept.trans ?_ (Kept.each (fun t k => Kept.release t k _) _ _)
  refine Kept.trans ?_ (Kept.raise _ _)
  exact .after (Kept.setSource _ _ _) (.of_eq rfl rfl rfl rfl rfl rfl rfl)

theorem Kept.takeTick (s : State) (n : Nat) : Kept s (s.takeTick n) := by
  unfold State.takeTick
  exact .ite (Kept.loseSource s n)
    (.after (t := s.setSource n _) (.of_eq rfl rfl rfl rfl rfl rfl rfl) (Kept.setSource _ _ _))

theorem Kept.tickSource (s : State) (n : Nat) : Kept s (s.tickSource n) := by
  unfold State.tickSource
  exact .ite (.ite (.of_eq rfl rfl rfl rfl rfl rfl rfl) (Kept.setSource _ _ _)) (.refl _)

/-! ### Applications -/

theorem Kept.applySetPoint (s : State) (e p f) : Kept s (applySetPoint s e p f) := by
  unfold Machine.applySetPoint
  exact .ite (Kept.drop _ _ _) (.ite (Kept.drop _ _ _) (.ite (Kept.drop _ _ _) (Kept.setPoint _ _ _ rfl)))

/-- What an occupancy write of several outputs leaves: those outputs hold the value, and nothing else changes. -/
theorem State.setOccupants_spec (s : State) (v : Option Nat) (ks : List Nat) :
    ∃ o, s.setOccupants v ks = { s with occupancy := o } ∧
      (s.occupancy.wf Occupancy.por = true → o.wf Occupancy.por = true) ∧
      ∀ k, o.get Occupancy.por k = if k ∈ ks then v else s.occupant k := by
  induction ks generalizing s with
  | nil => exact ⟨s.occupancy, rfl, id, fun k => by simp [State.occupant]⟩
  | cons j ks ih =>
    obtain ⟨o, he, hw, hg⟩ := ih (s.setOccupant j v)
    refine ⟨o, he, fun h => hw (Table.set_wf _ _ _ _ h), fun k => ?_⟩
    rw [hg k]
    by_cases hk : k ∈ ks <;> by_cases hj : k = j <;>
      simp [hk, hj, State.occupant, State.setOccupant, Table.get_set, Table.get_set_self]

/-- A BIND_POINT clears the outputs the point covered and enters it into those it covers now; the outputs it takes are
free or its own (R26), so that every other point's entries stand. -/
theorem Kept.applyBindPoint (s : State) (e p b) : Kept s (applyBindPoint s e p b) := by
  unfold Machine.applyBindPoint
  refine .ite (Kept.drop _ _ _) ?_
  split
  · exact Kept.drop _ _ _
  · rename_i hfree
    obtain ⟨o, he, hw, hg⟩ := State.setOccupants_spec s none (s.point p).binding.outputs
    obtain ⟨o', he', hw', hg'⟩ := State.setOccupants_spec { s with occupancy := o } (some p) b.outputs
    rw [he, he']
    refine .of_eq rfl rfl rfl rfl rfl rfl rfl
      (fun h => { h with occupancy := hw' (hw h.occupancy), points := Table.set_wf _ _ _ _ h.points }) fun _ h q k => ?_
    have hfree' : k ∈ b.outputs → s.occupant k = none ∨ s.occupant k = some p := fun hk => by
      cases ho : s.occupant k with
      | none => exact .inl rfl
      | some r =>
        refine .inr (congrArg _ (Decidable.byContradiction fun hr => hfree ?_))
        exact List.any_eq_true.2 ⟨k, hk, by simpa [ho] using hr⟩
    have hk : ({ s with occupancy := o' } : State).occupant k =
        if k ∈ b.outputs then some p else if k ∈ (s.point p).binding.outputs then none else s.occupant k := by
      rw [← hg k]
      exact hg' k
    have hq := h q k
    have hp := h p k
    show _ ↔ ({ s with occupancy := o' } : State).occupant k = some q
    rw [hk]
    by_cases hqp : q = p
    · subst hqp
      rw [State.point_setPoint]
      by_cases hb : k ∈ b.outputs <;> by_cases hc : k ∈ (s.point q).binding.outputs <;> simp_all
    · rw [State.point_setPoint_other _ _ _ _ hqp]
      by_cases hb : k ∈ b.outputs <;> by_cases hc : k ∈ (s.point p).binding.outputs <;> simp_all [State.point] <;>
        grind

theorem Kept.succeed (s : State) (o n f) : Kept s (s.succeed o n f) := by
  unfold State.succeed
  refine .ite (.refl s) ?_
  split
  · exact Kept.release _ _ _
  · exact .refl s

theorem Kept.applyTake (s : State) (e h) : Kept s (applyTake s e h) := by
  unfold Machine.applyTake
  split
  · exact .refl s
  · refine .ite ((Kept.drop _ _ _).trans (Kept.free _ _)) ?_
    refine Kept.trans ?_ (.ite (.refl _) (Kept.setNamed _ _ _ _))
    refine Kept.trans ?_ (Kept.succeed _ _ _ _)
    refine Kept.trans ?_ (Kept.setRecord _ _ _)
    refine Kept.trans ?_ (Kept.setWords _ _ _ _)
    exact .of_eq rfl rfl rfl rfl rfl rfl rfl

theorem Kept.applyRelease (s : State) (e a f) : Kept s (applyRelease s e a f) := by
  unfold Machine.applyRelease
  split
  · exact Kept.drop _ _ _
  · split
    · exact (Kept.withdrawTake _ _).trans (Kept.free _ _)
    · exact Kept.release _ _ _
    · exact Kept.release _ _ _
    · exact .ite (Kept.free _ _) (.refl _)

theorem Kept.applyReleaseSource (s : State) (t f) : Kept s (applyReleaseSource s t f) :=
  Kept.each (fun u k => Kept.release u k _) s _

theorem Kept.applyPaused (s : State) (e a b) : Kept s (applyPaused s e a b) := by
  unfold Machine.applyPaused
  split
  · exact Kept.drop _ _ _
  · exact .ite (Kept.setRecord _ _ _) (Kept.drop _ _ _)

theorem Kept.applyForceSet (s : State) (e x m v) : Kept s (applyForceSet s e x m v) := by
  unfold Machine.applyForceSet
  exact .ite (Kept.drop _ _ _) (.ite (Kept.drop _ _ _) (Kept.each (fun t _ => Kept.setForce t _ _) _ _))

theorem Kept.applyForceClear (s : State) (e x) : Kept s (applyForceClear s e x) := by
  unfold Machine.applyForceClear
  exact .ite (Kept.drop _ _ _) (Kept.each (fun t _ => Kept.setForce t _ _) _ _)

theorem Kept.applyFreeze (s : State) (e g) : Kept s (applyFreeze s e g) := by
  unfold Machine.applyFreeze
  exact .ite (Kept.drop _ _ _) (Kept.setFreezeCount _ _ _)

theorem Kept.applyThaw (s : State) (e g) : Kept s (applyThaw s e g) := by
  unfold Machine.applyThaw
  exact .ite (Kept.drop _ _ _) (Kept.setFreezeCount _ _ _)

theorem Kept.applyMasterSet (s : State) (m t f) : Kept s (applyMasterSet s m t f) := by
  unfold Machine.applyMasterSet
  exact .ite (Kept.setMaster _ _ _) (Kept.setMaster _ _ _)

theorem Kept.applyPlatePlay (s : State) (e p) : Kept s (applyPlatePlay s e p) := by
  unfold Machine.applyPlatePlay
  dsimp only
  split
  · exact Kept.drop _ _ _
  · exact Kept.setPlate _ _ _
  · exact .refl _
  · exact Kept.setPlate _ _ _
  · exact Kept.setPlate _ _ _

theorem Kept.applyPlateStop (s : State) (e p) : Kept s (applyPlateStop s e p) := by
  unfold Machine.applyPlateStop
  dsimp only
  split
  · exact Kept.drop _ _ _
  · exact .refl _
  · exact Kept.setPlate _ _ _
  · exact Kept.setPlate _ _ _
  · exact Kept.setPlate _ _ _

/-- The application of an entry by its owning block. -/
theorem Kept.applyEntry (s : State) (e : Entry) : Kept s (s.applyEntry e) := by
  unfold State.applyEntry
  split
  · exact Kept.applyTake _ _ _
  · exact Kept.applyRelease _ _ _ _
  · exact Kept.applyReleaseSource _ _ _
  · exact Kept.applyPaused _ _ _ _
  · exact Kept.applyPaused _ _ _ _
  · exact Kept.applySetPoint _ _ _ _
  · exact Kept.applyBindPoint _ _ _ _
  · exact Kept.setCurve _ _ _
  · exact Kept.applyForceSet _ _ _ _ _
  · exact Kept.applyForceClear _ _ _
  · exact Kept.applyFreeze _ _ _
  · exact Kept.applyThaw _ _ _
  · exact Kept.applyMasterSet _ _ _ _
  · exact .of_eq rfl rfl rfl rfl rfl rfl rfl
  · exact Kept.applyPlatePlay _ _ _
  · exact Kept.applyPlateStop _ _ _
  · exact Kept.setTile _ _ _

/-- The first due entry is a due entry of the queue, and the rest is the queue without it. -/
theorem takeFirstDue_spec (q : List Entry) (e : Entry) (rest : List Entry) (h : takeFirstDue q = some (e, rest)) :
    e ∈ q ∧ e.due = true ∧ rest.length + 1 = q.length ∧ ∀ x ∈ rest, x ∈ q := by
  induction q generalizing e rest with
  | nil => simp [takeFirstDue] at h
  | cons d ds ih =>
    unfold takeFirstDue at h
    split at h
    · rename_i hd
      cases h
      exact ⟨by simp, hd, rfl, fun x hx => by simp [hx]⟩
    · cases hr : takeFirstDue ds with
      | none => simp [hr] at h
      | some r =>
        simp only [hr, Option.map_some, Option.some.injEq, Prod.mk.injEq] at h
        obtain ⟨rfl, rfl⟩ := h
        obtain ⟨h1, h2, h3, h4⟩ := ih r.1 r.2 hr
        exact ⟨by simp [h1], h2, by simp [← h3], fun x hx => by
          rcases List.mem_cons.1 hx with rfl | hx
          · simp
          · simp [h4 x hx]⟩

/-- Application row: the first due entry, of the row's kind, leaves the queue and is applied, and the work it sets free
goes on. -/
theorem State.applyRow_front (s : State) (k : EntryKind) (e : Entry) (rest : List Entry) (hs : s.device = .running)
    (h : takeFirstDue s.queue = some (e, rest)) (hk : e.body.kind = k) :
    s.applyRow k = (({ s with queue := rest }).applyEntry e).advance := by
  obtain ⟨hm, hd, hl, _⟩ := takeFirstDue_spec _ _ _ h
  have hdue : s.hasDue k = true := by
    simp only [State.hasDue, List.any_eq_true]
    exact ⟨e, hm, by simp [hd, hk]⟩
  obtain ⟨n, hn⟩ : ∃ n, s.queue.length = n + 1 := ⟨rest.length, hl.symm⟩
  simp [State.applyRow, hs, hdue, hn, State.applyThrough, h, hk]

theorem Kept.applyNext (s : State) : Kept s s.applyNext := by
  unfold State.applyNext
  split
  · exact .refl s
  · rename_i e rest h
    have := (takeFirstDue_spec _ _ _ h).2.2.1
    exact .after (Kept.applyEntry _ _) (.of_le rfl rfl rfl rfl rfl (by dsimp only; omega) rfl)

theorem Kept.applyDue (s : State) (n : Nat) : Kept s (s.applyDue n) := by
  induction n generalizing s with
  | zero => exact .refl s
  | succ n ih => exact (Kept.applyNext s).trans (ih _)

theorem Kept.applyThrough (s : State) (k : EntryKind) (n : Nat) : Kept s (s.applyThrough k n) := by
  induction n generalizing s with
  | zero => exact .refl s
  | succ n ih =>
    unfold State.applyThrough
    refine .ite (.refl s) ?_
    split
    · exact .refl s
    · rename_i e rest h
      have := (takeFirstDue_spec _ _ _ h).2.2.1
      have hk : Kept s (({ s with queue := rest }).applyEntry e) :=
        .after (Kept.applyEntry _ _) (.of_le rfl rfl rfl rfl rfl (by dsimp only; omega) rfl)
      exact .ite hk (hk.trans (ih _))

/-! ### Counts, plates, tiles and links -/

theorem Kept.countFade (s : State) (k) : Kept s (s.countFade k) := by
  unfold State.countFade
  split
  · exact .refl s
  · exact .ite (.ite (Kept.setRecord _ _ _) (.refl _))
      (.ite (Kept.setRecord _ _ _) (.ite (Kept.setRecord _ _ _) (.of_eq rfl rfl rfl rfl rfl rfl rfl)))

theorem Kept.completeFadeIn (s : State) (k) : Kept s (s.completeFadeIn k) := by
  unfold State.completeFadeIn
  split
  · exact .ite (Kept.setRecord _ _ _) (.refl _)
  · exact .refl s

theorem Kept.completeFadeOut (s : State) (k) : Kept s (s.completeFadeOut k) := by
  unfold State.completeFadeOut
  split
  · exact .ite (Kept.free _ _) (.refl _)
  · exact .refl s

theorem Kept.completeFade (s : State) (k) : Kept s (s.completeFade k) :=
  (Kept.completeFadeIn s k).trans (Kept.completeFadeOut _ k)

theorem Kept.countMaster (s : State) (m) : Kept s (s.countMaster m) := by
  unfold State.countMaster
  exact .ite (.refl _) (.ite (Kept.setMaster _ _ _) (.ite (Kept.setMaster _ _ _) (.of_eq rfl rfl rfl rfl rfl rfl rfl)))

theorem Kept.completeMaster (s : State) (m) : Kept s (s.completeMaster m) := Kept.setMaster _ _ _

theorem Kept.countPlate (s : State) (p) : Kept s (s.countPlate p) := by
  unfold State.countPlate
  exact .ite (.refl _) (.ite (Kept.setPlate _ _ _) (.of_eq rfl rfl rfl rfl rfl rfl rfl))

theorem Kept.completePlate (s : State) (p) : Kept s (s.completePlate p) := by
  unfold State.completePlate
  refine .ite (.refl _) (.ite (Kept.setPlate _ _ _) ?_)
  split
  · exact Kept.setPlate _ _ _
  · exact (Kept.setPlate _ _ _).trans (Kept.raise _ _)
  · exact (Kept.setPlate _ _ _).trans (Kept.raise _ _)

theorem Kept.countDissolve (s : State) (t) : Kept s (s.countDissolve t) := by
  unfold State.countDissolve
  exact .ite (.refl _) (.ite (Kept.setTile _ _ _) (.of_eq rfl rfl rfl rfl rfl rfl rfl))

theorem Kept.completeDissolve (s : State) (t) : Kept s (s.completeDissolve t) := by
  unfold State.completeDissolve
  exact .ite (.refl _) (Kept.setTile _ _ _)

theorem Kept.countWake (s : State) (l) : Kept s (s.countWake l) := by
  unfold State.countWake
  exact .ite (.refl _) (.ite (Kept.setLink _ _ _) (.of_eq rfl rfl rfl rfl rfl rfl rfl))

theorem Kept.completeWake (s : State) (l) : Kept s (s.completeWake l) := by
  unfold State.completeWake
  exact .ite (.refl _) (Kept.setLink _ _ _)

theorem Kept.fillStores (s : State) (f) : Kept s (s.fillStores f) := Kept.setTile _ _ _

theorem Kept.addFetch (s : State) (t p) : Kept s (s.addFetch t p) := by
  unfold State.addFetch
  exact .ite (.after (Kept.fillStores _ _) (.of_eq rfl rfl rfl rfl rfl rfl rfl)) (.of_eq rfl rfl rfl rfl rfl rfl rfl)

/-- A fold over any list keeps what each step keeps. -/
theorem Kept.foldl {α : Type} {f : State → α → State} (h : ∀ s a, Kept s (f s a)) (s : State) (l : List α) :
    Kept s (l.foldl f s) := by
  induction l generalizing s with
  | nil => exact .refl s
  | cons a as ih => exact (h s a).trans (ih _)

theorem Kept.formFetchList (s : State) : Kept s s.formFetchList := by
  unfold State.formFetchList
  refine Kept.trans (.of_eq rfl rfl rfl rfl rfl rfl rfl fun h => { h with plates := Table.mapListed_wf _ _ _ h.plates } :
    Kept s { s with
      fetches := [], plates := s.plates.mapListed Plate.por fun _ x => { x with cleared := false } }) ?_
  unfold State.addFetches
  exact Kept.foldl (fun u t => Kept.foldl (fun u p => Kept.addFetch u t p) u _) _ _

theorem Kept.fetchForCut (s : State) (t) : Kept s (s.fetchForCut t) := by
  unfold State.fetchForCut
  dsimp only
  split
  · exact .ite (Kept.addFetch _ _ _) (.refl _)
  · exact .refl _

theorem Kept.dropFetches (s : State) (t) : Kept s (s.dropFetches t) := .of_eq rfl rfl rfl rfl rfl rfl rfl

theorem Kept.completeRead (s : State) (ws) : Kept s (s.completeRead ws) := by
  unfold State.completeRead
  split
  · exact .refl s
  · exact .ite (.of_eq rfl rfl rfl rfl rfl rfl rfl) (.after (Kept.fillStores _ _) (.of_eq rfl rfl rfl rfl rfl rfl rfl))

theorem Kept.failRead (s : State) : Kept s s.failRead := by
  unfold State.failRead
  split
  · exact .refl s
  · dsimp only
    split
    · exact .of_eq rfl rfl rfl rfl rfl rfl rfl
    · exact .after (Kept.raise _ _) (.after (Kept.setPlate _ _ _) (.of_eq rfl rfl rfl rfl rfl rfl rfl))

theorem Kept.countLatePlate (s : State) (v) : Kept s (s.countLatePlate v) := by
  unfold State.countLatePlate
  split
  · exact Kept.setPlate _ _ _
  · exact .refl _

theorem Kept.beginImage (s : State) (b v) : Kept s (s.beginImage b v) := by
  unfold State.beginImage
  refine .ite ?_ (.after (t := s.setTile v.tile _) (.of_eq rfl rfl rfl rfl rfl rfl rfl) (Kept.setTile _ _ _))
  exact ((Kept.raise _ _).trans (Kept.setTile _ _ _)).trans (Kept.each Kept.countLatePlate _ _)

theorem Kept.beginPacket (s : State) (f p) : Kept s (s.beginPacket f p) := by
  unfold State.beginPacket
  split
  · exact Kept.beginImage _ _ _
  · exact .refl _

theorem Kept.beginLinkFrame (s : State) (l f) : Kept s (s.beginLinkFrame l f) :=
  (Kept.setLink _ _ _).trans (Kept.beginPacket _ _ _)

theorem Kept.linkTakes (s : State) (l c) : Kept s (s.linkTakes l c) := by
  unfold State.linkTakes
  dsimp only
  split
  · exact (Kept.setLink _ _ _).trans (Kept.beginLinkFrame _ _ _)
  · exact (Kept.setLink _ _ _).trans (Kept.raise _ _)

theorem Kept.endPacket (s : State) (l) : Kept s (s.endPacket l) := by
  unfold State.endPacket
  dsimp only
  split
  · exact .refl s
  · refine .ite ((Kept.setLink _ _ _).trans (Kept.beginPacket _ _ _)) ?_
    split
    · exact (Kept.setLink _ _ _).trans (Kept.beginLinkFrame _ _ _)
    · exact Kept.setLink _ _ _

theorem Kept.settleLink (s : State) (l) : Kept s (s.settleLink l) := by
  unfold State.settleLink
  dsimp only
  split
  · exact .ite ((Kept.setLink _ _ _).trans (Kept.linkTakes _ _ _)) (.refl _)
  · exact Kept.linkTakes _ _ _
  · exact .ite (.after (t := s.setLink l _) (.of_eq rfl rfl rfl rfl rfl rfl rfl) (Kept.setLink _ _ _))
      ((Kept.setLink _ _ _).trans (Kept.linkTakes _ _ _))

theorem Kept.restLink (s : State) (l) : Kept s (s.restLink l) := (Kept.setLink _ _ _).trans (Kept.linkTakes _ _ _)

theorem Kept.tileTakes (s : State) (t v b) : Kept s (s.tileTakes t v b) := by
  unfold State.tileTakes
  dsimp only
  refine .ite (Kept.setTile _ _ _) ?_
  have h (x : Tile) : Kept s ((s.setTile t x).dropFetches t) := (Kept.setTile _ _ _).trans (Kept.dropFetches _ _)
  exact .ite ((h _).trans (Kept.fetchForCut _ _)) (h _)

theorem Kept.lineTakes (s : State) (l v) : Kept s (s.lineTakes l v) := by
  unfold State.lineTakes
  dsimp only
  exact .ite (.ite ((Kept.setLine _ _ _).trans (Kept.raise _ _)) (Kept.setLine _ _ _)) (.refl _)

theorem Kept.handOver (s : State) : Kept s s.handOver := by
  unfold State.handOver
  refine Kept.trans ?_ (Kept.each Kept.settleLink _ _)
  refine Kept.trans ?_ (Kept.each (fun u t => Kept.tileTakes u t _ _) _ _)
  exact Kept.each (fun u l => Kept.lineTakes u l _) _ _

theorem Kept.softClearPlate (s : State) (p) : Kept s (s.softClearPlate p) := by
  unfold State.softClearPlate
  dsimp only
  exact .ite (.ite (.after (Kept.setPlate _ _ _) (.of_eq rfl rfl rfl rfl rfl rfl rfl)) (Kept.setPlate _ _ _)) (Kept.setPlate _ _ _)

/-! ### The frame start's work -/

theorem Kept.beginCounting (s : State) : Kept s s.beginCounting := by
  unfold State.beginCounting
  refine Kept.trans ?_ (Kept.each Kept.countWake _ _)
  refine Kept.trans ?_ (Kept.each Kept.countDissolve _ _)
  refine Kept.trans ?_ (Kept.each Kept.countPlate _ _)
  refine Kept.trans ?_ (Kept.each Kept.countMaster _ _)
  refine Kept.trans ?_ (Kept.each Kept.countFade _ _)
  exact Kept.setWork _ _

theorem Kept.beginRender (s : State) : Kept s s.beginRender := by
  unfold State.beginRender
  dsimp only
  have h := (Kept.each (f := State.sampleInput) (fun t i => Kept.setInput t i _) s (List.range 4)).trans
    (Kept.formFetchList _)
  exact h.trans (.of_eq rfl rfl rfl rfl rfl rfl rfl)

theorem Kept.tryCount (s : State) : Kept s s.tryCount := by
  unfold State.tryCount
  exact .ite (Kept.beginCounting _) (.refl _)
theorem Kept.tryRender (s : State) : Kept s s.tryRender := by
  unfold State.tryRender
  exact .ite (Kept.beginRender _) (.refl _)
theorem Kept.advance (s : State) : Kept s s.advance := (Kept.tryCount s).trans (Kept.tryRender _)

/-- Going on after a step keeps what the step kept. -/
theorem Kept.takeLoadedTick (old s : State) (n) : Kept s (State.takeLoadedTick old s n) := by
  unfold State.takeLoadedTick
  exact .ite (Kept.takeTick _ _) (.refl _)

theorem Kept.takeLoadedTicks (old s : State) : Kept s (State.takeLoadedTicks old s) := Kept.each (Kept.takeLoadedTick old) _ _

theorem Kept.resume (old : State) (s : State) : Kept s (State.resume old s) := by
  unfold State.resume
  exact (Kept.takeLoadedTicks old s).trans (.ite (Kept.advance _) (.refl _))

theorem Kept.clearRecords (s : State) : Kept s s.clearRecords :=
  .of_le rfl rfl rfl rfl rfl (Nat.zero_le _) rfl fun h =>
    { h with
      slots := Table.mapListed_wf _ _ _ h.slots
      names := rfl
      sources := Table.mapListed_wf _ _ _ h.sources
      forces := rfl
      freezes := rfl
      masters := rfl }

theorem Kept.clearIfWaiting (s : State) : Kept s s.clearIfWaiting := .ite (Kept.clearRecords _) (.refl _)

theorem Kept.clearBlocks (s : State) : Kept s s.clearBlocks := by
  unfold State.clearBlocks
  refine Kept.trans ?_ (Kept.each Kept.softClearPlate _ _)
  exact .of_events_empty rfl rfl rfl rfl rfl (Nat.le_refl _) rfl fun h =>
    { h with
      sources := Table.mapListed_wf _ _ _ h.sources
      lists := Table.mapListed_wf _ _ _ h.lists
      cues := Table.mapListed_wf _ _ _ h.cues
      events := rfl
      lines := Table.mapListed_wf _ _ _ h.lines
      inputs := Table.mapListed_wf _ _ _ h.inputs
      tiles := Table.mapListed_wf _ _ _ h.tiles
      links := Table.mapListed_wf _ _ _ h.links }

theorem Kept.beginSoftClear (s : State) : Kept s s.beginSoftClear := by
  unfold State.beginSoftClear
  refine (Kept.clearBlocks s).trans ?_
  generalize s.clearBlocks = t
  dsimp only
  split
  · exact .of_eq rfl rfl rfl rfl rfl rfl rfl
  · exact .after (Kept.advance _) (Kept.clearRecords _)

theorem Kept.completeRender (s : State) : Kept s s.completeRender := by
  unfold State.completeRender
  refine Kept.trans ?_ (Kept.setWork _ _)
  refine Kept.trans ?_ (Kept.handOver _)
  refine Kept.trans ?_ (Kept.clearIfWaiting _)
  refine .of_eq rfl rfl rfl rfl rfl rfl rfl
    (fun h => { h with points := Table.mapListed_wf _ _ _ h.points, results := Table.ofFn_wf _ _ _ }) fun c h p k => ?_
  have hm := Table.get_mapListed s.points Point.por (fun _ x => { x with retake := false }) p c.points rfl
  have hp : (s.publish.point p).binding = (s.point p).binding := (congrArg Point.binding hm :)
  rw [hp]
  exact h p k

theorem Kept.settleApplication (s : State) : Kept s s.settleApplication :=
  (Kept.applyDue s _).trans (Kept.each Kept.takeTick _ _)

theorem Kept.settleIdle (s : State) : Kept s s.settleIdle :=
  (Kept.setWork s _).trans (Kept.each Kept.restLink _ _)

theorem Kept.holdLate (s : State) (l c a) : Kept s (s.holdLate l c a) := by
  unfold State.holdLate
  refine .ite (.refl _) ?_
  exact ((Kept.setCue _ _ _).trans (Kept.setList _ _ _)).trans (Kept.raise _ _)

theorem Kept.armList (s : State) (l) : Kept s (s.armList l) := Kept.each (fun t c => Kept.setCue t c _) s _

theorem Kept.newPass (s : State) (l) : Kept s (s.newPass l) := (Kept.armList s l).trans (Kept.setList _ _ _)

theorem Kept.endPass (s : State) (l) : Kept s (s.endPass l) := by
  unfold State.endPass
  dsimp only
  refine .ite (Kept.newPass _ _) (.ite ((Kept.newPass _ _).trans (Kept.setList _ _ _)) ?_)
  exact (Kept.setList _ _ _).trans (Kept.raise _ _)

theorem Kept.skipIdle (s : State) : Kept s s.skipIdle := by
  unfold State.skipIdle
  split
  · exact .refl s
  · refine .ite (.refl s) ?_
    split
    · exact Kept.setEvaluation _ _
    · exact .ite (Kept.setEvaluation _ _) (Kept.setEvaluation _ _)

theorem Kept.superviseAt (s : State) (m) : Kept s (s.superviseAt m) := .ite (Kept.each Kept.tickSource _ _) (.refl _)

theorem Kept.abandonFetches (s : State) : Kept s s.abandonFetches :=
  .of_eq rfl rfl rfl rfl rfl rfl rfl fun h => { h with tiles := Table.mapListed_wf _ _ _ h.tiles }

theorem Kept.turnFrame (s : State) : Kept s s.turnFrame :=
  .of_eq rfl rfl rfl rfl rfl rfl rfl fun h =>
    { h with plates := Table.mapListed_wf _ _ _ h.plates, links := Table.mapListed_wf _ _ _ h.links }

theorem Kept.fixDueSet (s : State) (m) : Kept s (s.fixDueSet m) :=
  .of_le rfl rfl rfl rfl rfl (by simp [State.fixDueSet]) rfl

theorem Kept.flush (s : State) (t a) : Kept s (s.flush t a) := by
  unfold State.flush
  exact .after (Kept.each Kept.free _ _) (.of_le rfl rfl rfl rfl rfl (List.length_filter_le _ _) rfl)

/-! ### What can fill the queue: arrivals and the firing of cues -/

/-- As `Kept`, of an operation that may add entries: a queue within its 64 entries stays within them. -/
structure KeptRoom (s t : State) : Prop where
  pending : t.pending = s.pending
  mask : t.mask = s.mask
  timer : t.timer = s.timer
  device : t.device = s.device
  now : t.now = s.now
  queue : t.queue.length ≤ max 64 s.queue.length
  events : ∀ k, (t.event k).count ≤ max 255 (s.event k).count
  strides : Strided s → Strided t
  canonical : Canonical s → Canonical t
  occupancy : Canonical s → OccupancyAgrees s → OccupancyAgrees t

theorem Kept.room {s t : State} (h : Kept s t) : KeptRoom s t :=
  ⟨h.pending, h.mask, h.timer, h.device, h.now, Nat.le_trans h.queue (Nat.le_max_right _ _), h.events, h.strides, h.canonical, h.occupancy⟩

theorem KeptRoom.refl (s : State) : KeptRoom s s := (Kept.refl s).room

theorem KeptRoom.trans {s t u : State} (h : KeptRoom s t) (g : KeptRoom t u) : KeptRoom s u :=
  ⟨g.pending.trans h.pending, g.mask.trans h.mask, g.timer.trans h.timer, g.device.trans h.device, g.now.trans h.now, by
    have := h.queue
    have := g.queue
    omega, fun k => by
    have := h.events k
    have := g.events k
    omega, fun c => g.strides (h.strides c), fun c => g.canonical (h.canonical c), fun c a => g.occupancy (h.canonical c) (h.occupancy c a)⟩

theorem KeptRoom.after {s t u : State} (g : KeptRoom t u) (h : KeptRoom s t) : KeptRoom s u := h.trans g

theorem KeptRoom.ite {c : Prop} [Decidable c] {s t u : State} (h : KeptRoom s t) (g : KeptRoom s u) :
    KeptRoom s (if c then t else u) := by
  split
  · exact h
  · exact g

/-- As `Kept`, of an operation that adds at most `n` entries. -/
structure KeptBut (n : Nat) (s t : State) : Prop where
  pending : t.pending = s.pending
  mask : t.mask = s.mask
  timer : t.timer = s.timer
  device : t.device = s.device
  now : t.now = s.now
  queue : t.queue.length ≤ s.queue.length + n
  events : ∀ k, (t.event k).count ≤ max 255 (s.event k).count
  strides : Strided s → Strided t
  canonical : Canonical s → Canonical t
  occupancy : Canonical s → OccupancyAgrees s → OccupancyAgrees t

theorem Kept.but {s t : State} (h : Kept s t) (n : Nat) : KeptBut n s t :=
  ⟨h.pending, h.mask, h.timer, h.device, h.now, Nat.le_trans h.queue (Nat.le_add_right _ _), h.events, h.strides, h.canonical, h.occupancy⟩

theorem KeptBut.trans {m n : Nat} {s t u : State} (h : KeptBut m s t) (g : KeptBut n t u) : KeptBut (m + n) s u :=
  ⟨g.pending.trans h.pending, g.mask.trans h.mask, g.timer.trans h.timer, g.device.trans h.device, g.now.trans h.now, by
    have := h.queue
    have := g.queue
    omega, fun k => by
    have := h.events k
    have := g.events k
    omega, fun c => g.strides (h.strides c), fun c => g.canonical (h.canonical c), fun c a => g.occupancy (h.canonical c) (h.occupancy c a)⟩

theorem KeptBut.room {n : Nat} {s t : State} (h : KeptBut n s t) (hr : n ≤ s.queueRoom) : KeptRoom s t :=
  ⟨h.pending, h.mask, h.timer, h.device, h.now, by
    have := h.queue
    unfold State.queueRoom at hr
    omega, h.events, h.strides, h.canonical, h.occupancy⟩

theorem KeptBut.enqueue (s : State) (n o f b) : KeptBut 1 s (s.enqueue n o f b) :=
  ⟨rfl, rfl, rfl, rfl, rfl, by simp [State.enqueue], fun _ => Nat.le_max_right _ _, .of_groups rfl,
    fun h => { h with }, fun _ h => .of_maps rfl rfl h⟩

theorem KeptBut.reserve (s : State) (k c ts) : KeptBut 1 s (s.reserve k c ts) := by
  unfold State.reserve
  dsimp only
  refine KeptBut.trans (m := 0) ?_ (KeptBut.enqueue _ _ _ _ _)
  refine Kept.but ?_ 0
  refine Kept.trans ?_ (Kept.setSource _ _ _)
  refine Kept.trans ?_ (Kept.setWords _ _ _ _)
  exact .after (Kept.setRecord _ _ _) (.of_eq rfl rfl rfl rfl rfl rfl rfl)

theorem KeptBut.fireTake (s : State) (n c a) : KeptBut 1 s (s.fireTake n c a) := by
  unfold State.fireTake
  split
  · exact (Kept.recordFailure _ _).but 1
  · split
    · exact (Kept.recordFailure _ _).but 1
    · exact (Kept.recordFailure _ _).but 1
    · exact KeptBut.reserve _ _ _ _

/-- An action of a firing cue adds at most one entry (R179). -/
theorem KeptBut.fireAction (s : State) (n c a) : KeptBut 1 s (s.fireAction n c a) := by
  unfold State.fireAction
  split
  · exact KeptBut.fireTake _ _ _ _
  · split
    · exact KeptBut.enqueue _ _ _ _ _
    · exact (Kept.refl s).but 1

theorem KeptBut.each {f : State → Nat → State} (h : ∀ s k, KeptBut 1 s (f s k)) (s : State) (l : List Nat) :
    KeptBut l.length s (s.each f l) := by
  induction l generalizing s with
  | nil => exact (Kept.refl s).but 0
  | cons k ks ih =>
    have := (h s k).trans (ih (f s k))
    rwa [Nat.add_comm] at this

/-- A firing adds at most one entry for each action of the cue (R179). -/
theorem KeptBut.fireCue (s : State) (l c) : KeptBut (s.cue c).chain.length s (s.fireCue l c) := by
  unfold State.fireCue
  dsimp only
  refine KeptBut.trans (n := 0)
    (KeptBut.each (f := fun t a => t.fireAction (s.list l).acting c a) (fun t a => KeptBut.fireAction t _ _ _) s
      (s.cue c).chain) (Kept.but ?_ 0)
  exact .ite (.after (Kept.endPass _ _) (.after (Kept.setList _ _ _) (Kept.setCue _ _ _)))
    (.after (Kept.setList _ _ _) (Kept.setCue _ _ _))

/-- A turn of the evaluation fires a head only where the queue has room for each of its actions (R178). -/
theorem KeptRoom.evaluateOnce (s : State) : KeptRoom s s.evaluateOnce.1 := by
  unfold State.evaluateOnce
  split
  · exact .refl s
  · split
    · exact (Kept.setEvaluation _ _).room
    · split
      · exact (Kept.setEvaluation _ _).room
      · split
        · exact ((Kept.holdLate _ _ _ _).trans (Kept.setEvaluation _ _)).room
        · split
          · exact ((Kept.holdLate _ _ _ _).trans (Kept.setEvaluation _ _)).room
          · rename_i hr
            exact (KeptBut.room (KeptBut.fireCue _ _ _) (by omega)).trans (Kept.setEvaluation _ _).room

theorem KeptRoom.evaluateAll (s : State) (n : Nat) : KeptRoom s (s.evaluateAll n) := by
  induction n generalizing s with
  | zero => exact .refl s
  | succ n ih => exact (KeptRoom.evaluateOnce s).trans (ih _)

theorem KeptRoom.evaluateToFire (s : State) : KeptRoom s s.evaluateToFire := by
  unfold State.evaluateToFire
  dsimp only
  refine .after (Kept.skipIdle _).room ?_
  split
  · exact KeptRoom.evaluateOnce s
  · exact (KeptRoom.evaluateOnce s).trans (KeptRoom.evaluateOnce _)

theorem KeptRoom.settleCounts (s : State) : KeptRoom s s.settleCounts := by
  unfold State.settleCounts
  dsimp only
  refine .after (Kept.each Kept.completeWake _ _).room ?_
  refine .after (Kept.each Kept.completeDissolve _ _).room ?_
  refine .after (Kept.each Kept.completePlate _ _).room ?_
  refine .after (KeptRoom.evaluateAll _ _) ?_
  refine .after (Kept.each Kept.completeMaster _ _).room ?_
  refine .after (Kept.each Kept.completeFade _ _).room ?_
  exact (Kept.setWork _ _).room

theorem KeptRoom.settleToPass (s : State) : KeptRoom s s.settleToPass := by
  unfold State.settleToPass
  have tail (t : State) : KeptRoom t t.settleCounts.beginRender :=
    .after (Kept.beginRender _).room (KeptRoom.settleCounts _)
  split
  · exact .refl s
  · exact ((Kept.settleApplication _).trans (Kept.beginCounting _)).room.trans (tail _)
  · exact tail s
  · exact .refl s

theorem KeptRoom.settleRender (s : State) : KeptRoom s s.settleRender := by
  unfold State.settleRender
  split
  · exact .refl s
  · exact (KeptRoom.settleToPass s).trans (Kept.completeRender _).room
  · exact (KeptRoom.settleToPass s).trans (Kept.completeRender _).room
  · exact (KeptRoom.evaluateAll _ _).trans (Kept.completeRender _).room

/-- The work that a command awaits. -/
theorem KeptRoom.awaited (s : State) (i : Instr) : KeptRoom s (s.awaited i) := by
  unfold State.awaited
  split
  any_goals exact KeptRoom.evaluateAll _ _
  any_goals exact KeptRoom.settleToPass _
  · exact .ite (.refl s) (KeptRoom.settleToPass s)
  · exact .refl s

theorem KeptRoom.settle (s : State) : KeptRoom s s.settle := by
  unfold State.settle
  exact .after (Kept.settleIdle _).room (.after (KeptRoom.evaluateAll _ _) (KeptRoom.settleRender _))

/-! ### The frame start and the timer -/

/-- What a frame start issued at time t leaves (R14, R16, log 4): the counter, the flag and the last frame start time
are the timer's new ones, the rest of the timer stays. -/
theorem State.frameStart_timer (s : State) (t : Nat) :
    (s.frameStart t).timer = { s.timer with counter := s.timer.nextFrame, pendingFrame := none, lastFrameStart := t,
                                            timedFromRef := s.timer.timed } := by
  unfold State.frameStart
  dsimp only
  rw [((Kept.skipIdle _).trans (Kept.advance _)).timer, (Kept.superviseAt _ _).timer, (Kept.setWork _ _).timer,
    (Kept.fixDueSet _ _).timer]
  simp [State.abandonFetches, State.turnFrame, State.setTimer, (KeptRoom.settle s).timer]

/-- As `KeptRoom`, of an operation that may change the timer and the latest time. -/
structure KeptTimed (s t : State) : Prop where
  pending : t.pending = s.pending
  mask : t.mask = s.mask
  device : t.device = s.device
  queue : t.queue.length ≤ max 64 s.queue.length
  events : ∀ k, (t.event k).count ≤ max 255 (s.event k).count
  strides : Strided s → Strided t
  canonical : Canonical s → Canonical t
  occupancy : Canonical s → OccupancyAgrees s → OccupancyAgrees t

theorem KeptRoom.timed {s t : State} (h : KeptRoom s t) : KeptTimed s t :=
  ⟨h.pending, h.mask, h.device, h.queue, h.events, h.strides, h.canonical, h.occupancy⟩

theorem Kept.timed {s t : State} (h : Kept s t) : KeptTimed s t := h.room.timed

theorem KeptTimed.refl (s : State) : KeptTimed s s := (Kept.refl s).timed

theorem KeptTimed.trans {s t u : State} (h : KeptTimed s t) (g : KeptTimed t u) : KeptTimed s u :=
  ⟨g.pending.trans h.pending, g.mask.trans h.mask, g.device.trans h.device, by
    have := h.queue
    have := g.queue
    omega, fun k => by
    have := h.events k
    have := g.events k
    omega, fun c => g.strides (h.strides c), fun c => g.canonical (h.canonical c), fun c a => g.occupancy (h.canonical c) (h.occupancy c a)⟩

theorem KeptTimed.after {s t u : State} (g : KeptTimed t u) (h : KeptTimed s t) : KeptTimed s u := h.trans g

theorem KeptTimed.ite {c : Prop} [Decidable c] {s t u : State} (h : KeptTimed s t) (g : KeptTimed s u) :
    KeptTimed s (if c then t else u) := by
  split
  · exact h
  · exact g

theorem KeptTimed.setTimer (s : State) (x : Timer) : KeptTimed s (s.setTimer x) :=
  ⟨rfl, rfl, rfl, Nat.le_max_right _ _, fun _ => Nat.le_max_right _ _, .of_groups rfl, fun h => { h with },
    fun _ h => .of_maps rfl rfl h⟩

theorem KeptTimed.setNow (s : State) (t : Nat) : KeptTimed s { s with now := t } :=
  ⟨rfl, rfl, rfl, Nat.le_max_right _ _, fun _ => Nat.le_max_right _ _, .of_groups rfl, fun h => { h with },
    fun _ h => .of_maps rfl rfl h⟩

theorem KeptTimed.raise (s : State) (k) : KeptTimed s (s.raise k) := (Kept.raise s k).timed

theorem KeptTimed.frameStart (s : State) (t : Nat) : KeptTimed s (s.frameStart t) := by
  unfold State.frameStart
  dsimp only
  refine .after ((Kept.skipIdle _).trans (Kept.advance _)).timed ?_
  refine .after (Kept.superviseAt _ _).timed ?_
  refine .after (Kept.setWork _ _).timed ?_
  refine .after (Kept.fixDueSet _ _).timed ?_
  refine .after ((Kept.abandonFetches _).trans (Kept.turnFrame _)).timed ?_
  exact .after (KeptTimed.setTimer _ _) (KeptRoom.settle s).timed

theorem KeptTimed.enterFreeRun (s : State) : KeptTimed s s.enterFreeRun := by
  unfold State.enterFreeRun
  exact .ite (.after (KeptTimed.frameStart _ _) (KeptTimed.setTimer _ _)) (KeptTimed.setTimer _ _)

theorem KeptTimed.expireHoldover (s : State) : KeptTimed s s.expireHoldover := by
  unfold State.expireHoldover
  refine .ite (.refl s) ?_
  split
  · exact .after (KeptTimed.enterFreeRun _) (.after (KeptTimed.raise _ _) (KeptTimed.setTimer _ _))
  · exact .after (KeptTimed.raise _ _) (KeptTimed.setTimer _ _)
  · exact KeptTimed.setTimer _ _
  · exact KeptTimed.setTimer _ _

theorem KeptTimed.localExpiry (s : State) : KeptTimed s s.localExpiry := by
  unfold State.localExpiry
  refine .after (.ite (.refl _) ?_) (KeptTimed.expireHoldover s)
  exact .after (KeptTimed.frameStart _ _) (.after (KeptTimed.setTimer _ _) (KeptTimed.setNow _ _))

theorem KeptTimed.acquirePulse (s : State) (t) : KeptTimed s (s.acquirePulse t) := by
  unfold State.acquirePulse
  have h : KeptTimed s ((s.setTimer (s.timer.align ((s.timer.interval t).getD 0) t)).raise .refLocked) :=
    (KeptTimed.setTimer _ _).trans (KeptTimed.raise _ _)
  exact .ite (KeptTimed.setTimer _ _) (.ite h (h.trans (KeptTimed.frameStart _ _)))

theorem KeptTimed.lockedPulse (s : State) (t) : KeptTimed s (s.lockedPulse t) := by
  unfold State.lockedPulse
  refine .ite (KeptTimed.raise _ _) (.ite ?_ (.ite ?_ ?_))
  · exact (KeptTimed.setTimer _ _).trans (KeptTimed.frameStart _ _)
  · exact (KeptTimed.setTimer _ _).trans (KeptTimed.frameStart _ _)
  · exact ((KeptTimed.setTimer _ _).trans (KeptTimed.raise _ _)).trans (KeptTimed.frameStart _ _)

theorem KeptTimed.refPulse (s : State) (t) : KeptTimed s (s.refPulse t) := by
  unfold State.refPulse
  refine .after (.ite (.refl _) ?_) (KeptTimed.setNow s (max s.now t))
  split
  · exact KeptTimed.setTimer _ _
  · exact KeptTimed.setTimer _ _
  · exact (KeptTimed.expireHoldover _).trans (KeptTimed.acquirePulse _ _)
  · exact KeptTimed.lockedPulse _ _

theorem KeptTimed.loseAcquisition (s : State) : KeptTimed s s.loseAcquisition := by
  unfold State.loseAcquisition
  split
  · exact KeptTimed.enterFreeRun _
  · exact KeptTimed.setTimer _ _

theorem KeptTimed.loseLock (s : State) (t) : KeptTimed s (s.loseLock t) := by
  unfold State.loseLock
  refine .after (.ite (KeptTimed.enterFreeRun _) ?_) ((KeptTimed.setTimer _ _).trans (KeptTimed.raise _ _))
  exact (KeptTimed.setTimer _ _).trans (KeptTimed.frameStart _ _)

theorem KeptTimed.lossExpiry (s : State) : KeptTimed s s.lossExpiry := by
  unfold State.lossExpiry
  refine .after ?_ (KeptTimed.expireHoldover s)
  generalize s.expireHoldover = u
  dsimp only
  split
  · exact .refl u
  · split
    · exact (KeptTimed.setNow _ _).trans (KeptTimed.loseAcquisition _)
    · exact (KeptTimed.setNow _ _).trans (KeptTimed.loseLock _ _)
    · exact .refl u
    · exact .refl u

theorem KeptTimed.applyTiming (s : State) (r e l) : KeptTimed s (s.applyTiming r e l) := by
  unfold State.applyTiming
  refine .after (.ite ?_ (KeptTimed.setTimer _ _)) (KeptTimed.expireHoldover s)
  exact (KeptTimed.setTimer _ _).trans (KeptTimed.enterFreeRun _)

/-! ### The plates that were PLAYING before a frame start's application (R149) -/

/-- What each update of a fold leaves as it is, the fold leaves so. -/
theorem State.each_same {α : Type} (g : State → α) {f : State → Nat → State} (h : ∀ s k, g (f s k) = g s) (s : State)
    (l : List Nat) : g (s.each f l) = g s := by
  induction l generalizing s with
  | nil => rfl
  | cons k ks ih => exact (ih _).trans (h s k)

/-- As `each_same`, of a fold over any list. -/
theorem State.foldl_same {α β : Type} (g : State → β) {f : State → α → State} (h : ∀ s a, g (f s a) = g s) (s : State)
    (l : List α) : g (l.foldl f s) = g s := by
  induction l generalizing s with
  | nil => rfl
  | cons a as ih => exact (ih _).trans (h s a)

theorem State.beginCounting_wasPlaying (s : State) (p : Nat) :
    (s.beginCounting.plate p).wasPlaying = (s.plate p).wasPlaying := by
  have mark {f : State → Nat → State} (h : ∀ t k, ((f t k).plate p).wasPlaying = (t.plate p).wasPlaying)
      (t : State) (l : List Nat) : ((t.each f l).plate p).wasPlaying = (t.plate p).wasPlaying :=
    State.each_same (fun u => (u.plate p).wasPlaying) h t l
  unfold State.beginCounting
  rw [mark, mark, mark, mark, mark]
  · rfl
  · intro t k
    unfold State.countFade
    split
    · rfl
    · repeat' split
      all_goals rfl
  · intro t k
    unfold State.countMaster
    dsimp only
    repeat' split
    all_goals rfl
  · intro t k
    unfold State.countPlate
    dsimp only
    repeat' split
    · rfl
    · by_cases h : p = k
      · rw [h, State.plate_setPlate]
      · rw [State.plate_setPlate_other _ _ _ _ h]
    · rfl
  · intro t k
    unfold State.countDissolve
    dsimp only
    repeat' split
    all_goals rfl
  · intro t k
    unfold State.countWake
    dsimp only
    repeat' split
    all_goals rfl

/-- The beginning of a render pass changes the mark `cleared` of the plates, and no other field of one. -/
theorem State.beginRender_plates (s : State) :
    s.beginRender.plates = s.plates.mapListed Plate.por fun _ x => { x with cleared := false } := by
  have add (t : State) (k p : Nat) : (t.addFetch k p).plates = t.plates := by
    unfold State.addFetch
    dsimp only
    split <;> rfl
  have adds (t : State) : t.addFetches.plates = t.plates :=
    State.foldl_same State.plates (fun u k => State.foldl_same State.plates (fun v p => add v k p) u _) t _
  unfold State.beginRender
  dsimp only
  unfold State.formFetchList
  rw [adds]
  dsimp only
  rw [State.each_same State.plates (fun _ _ => by rfl)]

/-- Going on with a frame start's work leaves the marks of the plates PLAYING before its application. -/
theorem State.advance_wasPlaying (s : State) (hc : Canonical s) (p : Nat) :
    (s.advance.plate p).wasPlaying = (s.plate p).wasPlaying := by
  have count : (s.tryCount.plate p).wasPlaying = (s.plate p).wasPlaying := by
    unfold State.tryCount
    split
    · exact State.beginCounting_wasPlaying s p
    · rfl
  unfold State.advance State.tryRender
  split
  · rw [← count]
    have h := Table.get_mapListed s.tryCount.plates Plate.por (fun _ x => { x with cleared := false }) p
      ((Kept.tryCount s).canonical hc).plates rfl
    rw [← State.beginRender_plates] at h
    exact (congrArg Plate.wasPlaying h :)
  · exact count

end Sys2Proof.Machine
end

