-- ==== Sys2Proof/Laws/Met.lean ====
section
/-! SUPPORT. What a received frame leaves alone before its own checks: `State.met` changes the transaction, the reply
buffers, the latest time, one source and the event set, and nothing else. -/

namespace Sys2Proof.Machine

/-! ### The reload of a source (R49) -/

/-- The reload touches one source and the event set. -/
theorem State.reloadSource_frame (s : State) (n : Nat) :
    s.reloadSource n =
      { s with
        sources := (s.reloadSource n).sources
        events := if (s.source n).state = .lost then (s.raise .sourceBack).events else s.events } := by
  unfold State.reloadSource
  dsimp only
  unfold State.loadLiveness
  split <;> rfl

@[simp] theorem State.reloadSource_pending (s : State) (n : Nat) : (s.reloadSource n).pending = s.pending := by
  rw [State.reloadSource_frame]
@[simp] theorem State.reloadSource_device (s : State) (n : Nat) : (s.reloadSource n).device = s.device := by
  rw [State.reloadSource_frame]
@[simp] theorem State.reloadSource_softClear (s : State) (n : Nat) : (s.reloadSource n).softClear = s.softClear := by
  rw [State.reloadSource_frame]
@[simp] theorem State.reloadSource_timer (s : State) (n : Nat) : (s.reloadSource n).timer = s.timer := by
  rw [State.reloadSource_frame]
@[simp] theorem State.reloadSource_points (s : State) (n : Nat) : (s.reloadSource n).points = s.points := by
  rw [State.reloadSource_frame]
@[simp] theorem State.reloadSource_occupancy (s : State) (n : Nat) : (s.reloadSource n).occupancy = s.occupancy := by
  rw [State.reloadSource_frame]
@[simp] theorem State.reloadSource_groups (s : State) (n : Nat) : (s.reloadSource n).groups = s.groups := by
  rw [State.reloadSource_frame]
@[simp] theorem State.reloadSource_curves (s : State) (n : Nat) : (s.reloadSource n).curves = s.curves := by
  rw [State.reloadSource_frame]
@[simp] theorem State.reloadSource_results (s : State) (n : Nat) : (s.reloadSource n).results = s.results := by
  rw [State.reloadSource_frame]
@[simp] theorem State.reloadSource_renderFrame (s : State) (n : Nat) : (s.reloadSource n).renderFrame = s.renderFrame := by
  rw [State.reloadSource_frame]
@[simp] theorem State.reloadSource_interval (s : State) (n : Nat) : (s.reloadSource n).interval = s.interval := by
  rw [State.reloadSource_frame]
@[simp] theorem State.reloadSource_slots (s : State) (n : Nat) : (s.reloadSource n).slots = s.slots := by
  rw [State.reloadSource_frame]
@[simp] theorem State.reloadSource_names (s : State) (n : Nat) : (s.reloadSource n).names = s.names := by
  rw [State.reloadSource_frame]
@[simp] theorem State.reloadSource_pool (s : State) (n : Nat) : (s.reloadSource n).pool = s.pool := by
  rw [State.reloadSource_frame]
@[simp] theorem State.reloadSource_poolFree (s : State) (n : Nat) : (s.reloadSource n).poolFree = s.poolFree := by
  rw [State.reloadSource_frame]
@[simp] theorem State.reloadSource_sequence (s : State) (n : Nat) : (s.reloadSource n).sequence = s.sequence := by
  rw [State.reloadSource_frame]
@[simp] theorem State.reloadSource_queue (s : State) (n : Nat) : (s.reloadSource n).queue = s.queue := by
  rw [State.reloadSource_frame]
@[simp] theorem State.reloadSource_arrival (s : State) (n : Nat) : (s.reloadSource n).arrival = s.arrival := by
  rw [State.reloadSource_frame]
@[simp] theorem State.reloadSource_lastFailure (s : State) (n : Nat) : (s.reloadSource n).lastFailure = s.lastFailure := by
  rw [State.reloadSource_frame]
@[simp] theorem State.reloadSource_forces (s : State) (n : Nat) : (s.reloadSource n).forces = s.forces := by
  rw [State.reloadSource_frame]
@[simp] theorem State.reloadSource_freezes (s : State) (n : Nat) : (s.reloadSource n).freezes = s.freezes := by
  rw [State.reloadSource_frame]
@[simp] theorem State.reloadSource_masters (s : State) (n : Nat) : (s.reloadSource n).masters = s.masters := by
  rw [State.reloadSource_frame]
@[simp] theorem State.reloadSource_workLight (s : State) (n : Nat) : (s.reloadSource n).workLight = s.workLight := by
  rw [State.reloadSource_frame]
@[simp] theorem State.reloadSource_wltPin (s : State) (n : Nat) : (s.reloadSource n).wltPin = s.wltPin := by
  rw [State.reloadSource_frame]
@[simp] theorem State.reloadSource_wltSample (s : State) (n : Nat) : (s.reloadSource n).wltSample = s.wltSample := by
  rw [State.reloadSource_frame]
@[simp] theorem State.reloadSource_wltRendered (s : State) (n : Nat) : (s.reloadSource n).wltRendered = s.wltRendered := by
  rw [State.reloadSource_frame]
@[simp] theorem State.reloadSource_lines (s : State) (n : Nat) : (s.reloadSource n).lines = s.lines := by
  rw [State.reloadSource_frame]
@[simp] theorem State.reloadSource_inputs (s : State) (n : Nat) : (s.reloadSource n).inputs = s.inputs := by
  rw [State.reloadSource_frame]
@[simp] theorem State.reloadSource_tiles (s : State) (n : Nat) : (s.reloadSource n).tiles = s.tiles := by
  rw [State.reloadSource_frame]
@[simp] theorem State.reloadSource_links (s : State) (n : Nat) : (s.reloadSource n).links = s.links := by
  rw [State.reloadSource_frame]
@[simp] theorem State.reloadSource_plates (s : State) (n : Nat) : (s.reloadSource n).plates = s.plates := by
  rw [State.reloadSource_frame]
@[simp] theorem State.reloadSource_descriptors (s : State) (n : Nat) : (s.reloadSource n).descriptors = s.descriptors := by
  rw [State.reloadSource_frame]
@[simp] theorem State.reloadSource_descriptorFree (s : State) (n : Nat) : (s.reloadSource n).descriptorFree = s.descriptorFree := by
  rw [State.reloadSource_frame]
@[simp] theorem State.reloadSource_fetches (s : State) (n : Nat) : (s.reloadSource n).fetches = s.fetches := by
  rw [State.reloadSource_frame]
@[simp] theorem State.reloadSource_draws (s : State) (n : Nat) : (s.reloadSource n).draws = s.draws := by
  rw [State.reloadSource_frame]
@[simp] theorem State.reloadSource_cues (s : State) (n : Nat) : (s.reloadSource n).cues = s.cues := by
  rw [State.reloadSource_frame]
@[simp] theorem State.reloadSource_actions (s : State) (n : Nat) : (s.reloadSource n).actions = s.actions := by
  rw [State.reloadSource_frame]
@[simp] theorem State.reloadSource_actionFree (s : State) (n : Nat) : (s.reloadSource n).actionFree = s.actionFree := by
  rw [State.reloadSource_frame]
@[simp] theorem State.reloadSource_lists (s : State) (n : Nat) : (s.reloadSource n).lists = s.lists := by
  rw [State.reloadSource_frame]
@[simp] theorem State.reloadSource_work (s : State) (n : Nat) : (s.reloadSource n).work = s.work := by
  rw [State.reloadSource_frame]
@[simp] theorem State.reloadSource_mask (s : State) (n : Nat) : (s.reloadSource n).mask = s.mask := by
  rw [State.reloadSource_frame]

/-! ### The end of the transaction (R185) -/

/-- The end of the transaction touches the transaction mark, the reply buffers and the latest time. -/
theorem State.endTransaction_frame (s : State) (t : Nat) :
    s.endTransaction t =
      { s with
        transaction := false
        outgoing := if s.transaction then s.outgoing else s.reply
        reply := if s.transaction then s.reply else []
        now := max s.now t } := by
  unfold State.endTransaction
  dsimp only
  split
  · rfl
  · rename_i h
    rw [Bool.not_eq_true] at h
    simp only [State.latchReply]
    cases s
    simp_all

@[simp] theorem State.endTransaction_pending (s : State) (t : Nat) : (s.endTransaction t).pending = s.pending := by
  rw [State.endTransaction_frame]
@[simp] theorem State.endTransaction_device (s : State) (t : Nat) : (s.endTransaction t).device = s.device := by
  rw [State.endTransaction_frame]
@[simp] theorem State.endTransaction_softClear (s : State) (t : Nat) : (s.endTransaction t).softClear = s.softClear := by
  rw [State.endTransaction_frame]
@[simp] theorem State.endTransaction_work (s : State) (t : Nat) : (s.endTransaction t).work = s.work := by
  rw [State.endTransaction_frame]
@[simp] theorem State.endTransaction_timer (s : State) (t : Nat) : (s.endTransaction t).timer = s.timer := by
  rw [State.endTransaction_frame]
@[simp] theorem State.endTransaction_points (s : State) (t : Nat) : (s.endTransaction t).points = s.points := by
  rw [State.endTransaction_frame]
@[simp] theorem State.endTransaction_occupancy (s : State) (t : Nat) : (s.endTransaction t).occupancy = s.occupancy := by
  rw [State.endTransaction_frame]
@[simp] theorem State.endTransaction_groups (s : State) (t : Nat) : (s.endTransaction t).groups = s.groups := by
  rw [State.endTransaction_frame]
@[simp] theorem State.endTransaction_curves (s : State) (t : Nat) : (s.endTransaction t).curves = s.curves := by
  rw [State.endTransaction_frame]
@[simp] theorem State.endTransaction_results (s : State) (t : Nat) : (s.endTransaction t).results = s.results := by
  rw [State.endTransaction_frame]
@[simp] theorem State.endTransaction_renderFrame (s : State) (t : Nat) : (s.endTransaction t).renderFrame = s.renderFrame := by
  rw [State.endTransaction_frame]
@[simp] theorem State.endTransaction_sources (s : State) (t : Nat) : (s.endTransaction t).sources = s.sources := by
  rw [State.endTransaction_frame]
@[simp] theorem State.endTransaction_interval (s : State) (t : Nat) : (s.endTransaction t).interval = s.interval := by
  rw [State.endTransaction_frame]
@[simp] theorem State.endTransaction_slots (s : State) (t : Nat) : (s.endTransaction t).slots = s.slots := by
  rw [State.endTransaction_frame]
@[simp] theorem State.endTransaction_names (s : State) (t : Nat) : (s.endTransaction t).names = s.names := by
  rw [State.endTransaction_frame]
@[simp] theorem State.endTransaction_pool (s : State) (t : Nat) : (s.endTransaction t).pool = s.pool := by
  rw [State.endTransaction_frame]
@[simp] theorem State.endTransaction_poolFree (s : State) (t : Nat) : (s.endTransaction t).poolFree = s.poolFree := by
  rw [State.endTransaction_frame]
@[simp] theorem State.endTransaction_sequence (s : State) (t : Nat) : (s.endTransaction t).sequence = s.sequence := by
  rw [State.endTransaction_frame]
@[simp] theorem State.endTransaction_queue (s : State) (t : Nat) : (s.endTransaction t).queue = s.queue := by
  rw [State.endTransaction_frame]
@[simp] theorem State.endTransaction_arrival (s : State) (t : Nat) : (s.endTransaction t).arrival = s.arrival := by
  rw [State.endTransaction_frame]
@[simp] theorem State.endTransaction_lastFailure (s : State) (t : Nat) : (s.endTransaction t).lastFailure = s.lastFailure := by
  rw [State.endTransaction_frame]
@[simp] theorem State.endTransaction_forces (s : State) (t : Nat) : (s.endTransaction t).forces = s.forces := by
  rw [State.endTransaction_frame]
@[simp] theorem State.endTransaction_freezes (s : State) (t : Nat) : (s.endTransaction t).freezes = s.freezes := by
  rw [State.endTransaction_frame]
@[simp] theorem State.endTransaction_masters (s : State) (t : Nat) : (s.endTransaction t).masters = s.masters := by
  rw [State.endTransaction_frame]
@[simp] theorem State.endTransaction_workLight (s : State) (t : Nat) : (s.endTransaction t).workLight = s.workLight := by
  rw [State.endTransaction_frame]
@[simp] theorem State.endTransaction_wltPin (s : State) (t : Nat) : (s.endTransaction t).wltPin = s.wltPin := by
  rw [State.endTransaction_frame]
@[simp] theorem State.endTransaction_wltSample (s : State) (t : Nat) : (s.endTransaction t).wltSample = s.wltSample := by
  rw [State.endTransaction_frame]
@[simp] theorem State.endTransaction_wltRendered (s : State) (t : Nat) : (s.endTransaction t).wltRendered = s.wltRendered := by
  rw [State.endTransaction_frame]
@[simp] theorem State.endTransaction_lines (s : State) (t : Nat) : (s.endTransaction t).lines = s.lines := by
  rw [State.endTransaction_frame]
@[simp] theorem State.endTransaction_inputs (s : State) (t : Nat) : (s.endTransaction t).inputs = s.inputs := by
  rw [State.endTransaction_frame]
@[simp] theorem State.endTransaction_tiles (s : State) (t : Nat) : (s.endTransaction t).tiles = s.tiles := by
  rw [State.endTransaction_frame]
@[simp] theorem State.endTransaction_links (s : State) (t : Nat) : (s.endTransaction t).links = s.links := by
  rw [State.endTransaction_frame]
@[simp] theorem State.endTransaction_plates (s : State) (t : Nat) : (s.endTransaction t).plates = s.plates := by
  rw [State.endTransaction_frame]
@[simp] theorem State.endTransaction_descriptors (s : State) (t : Nat) : (s.endTransaction t).descriptors = s.descriptors := by
  rw [State.endTransaction_frame]
@[simp] theorem State.endTransaction_descriptorFree (s : State) (t : Nat) : (s.endTransaction t).descriptorFree = s.descriptorFree := by
  rw [State.endTransaction_frame]
@[simp] theorem State.endTransaction_fetches (s : State) (t : Nat) : (s.endTransaction t).fetches = s.fetches := by
  rw [State.endTransaction_frame]
@[simp] theorem State.endTransaction_draws (s : State) (t : Nat) : (s.endTransaction t).draws = s.draws := by
  rw [State.endTransaction_frame]
@[simp] theorem State.endTransaction_cues (s : State) (t : Nat) : (s.endTransaction t).cues = s.cues := by
  rw [State.endTransaction_frame]
@[simp] theorem State.endTransaction_actions (s : State) (t : Nat) : (s.endTransaction t).actions = s.actions := by
  rw [State.endTransaction_frame]
@[simp] theorem State.endTransaction_actionFree (s : State) (t : Nat) : (s.endTransaction t).actionFree = s.actionFree := by
  rw [State.endTransaction_frame]
@[simp] theorem State.endTransaction_lists (s : State) (t : Nat) : (s.endTransaction t).lists = s.lists := by
  rw [State.endTransaction_frame]
@[simp] theorem State.endTransaction_events (s : State) (t : Nat) : (s.endTransaction t).events = s.events := by
  rw [State.endTransaction_frame]
@[simp] theorem State.endTransaction_mask (s : State) (t : Nat) : (s.endTransaction t).mask = s.mask := by
  rw [State.endTransaction_frame]

/-! ### Both together -/

@[simp] theorem State.met_pending (s : State) (h : Header) : (s.met h).pending = s.pending := by
  simp [State.met]
@[simp] theorem State.met_device (s : State) (h : Header) : (s.met h).device = s.device := by
  simp [State.met]
@[simp] theorem State.met_softClear (s : State) (h : Header) : (s.met h).softClear = s.softClear := by
  simp [State.met]
@[simp] theorem State.met_timer (s : State) (h : Header) : (s.met h).timer = s.timer := by
  simp [State.met]
@[simp] theorem State.met_points (s : State) (h : Header) : (s.met h).points = s.points := by
  simp [State.met]
@[simp] theorem State.met_occupancy (s : State) (h : Header) : (s.met h).occupancy = s.occupancy := by
  simp [State.met]
@[simp] theorem State.met_groups (s : State) (h : Header) : (s.met h).groups = s.groups := by
  simp [State.met]
@[simp] theorem State.met_curves (s : State) (h : Header) : (s.met h).curves = s.curves := by
  simp [State.met]
@[simp] theorem State.met_results (s : State) (h : Header) : (s.met h).results = s.results := by
  simp [State.met]
@[simp] theorem State.met_renderFrame (s : State) (h : Header) : (s.met h).renderFrame = s.renderFrame := by
  simp [State.met]
@[simp] theorem State.met_interval (s : State) (h : Header) : (s.met h).interval = s.interval := by
  simp [State.met]
@[simp] theorem State.met_slots (s : State) (h : Header) : (s.met h).slots = s.slots := by
  simp [State.met]
@[simp] theorem State.met_names (s : State) (h : Header) : (s.met h).names = s.names := by
  simp [State.met]
@[simp] theorem State.met_pool (s : State) (h : Header) : (s.met h).pool = s.pool := by
  simp [State.met]
@[simp] theorem State.met_poolFree (s : State) (h : Header) : (s.met h).poolFree = s.poolFree := by
  simp [State.met]
@[simp] theorem State.met_sequence (s : State) (h : Header) : (s.met h).sequence = s.sequence := by
  simp [State.met]
@[simp] theorem State.met_queue (s : State) (h : Header) : (s.met h).queue = s.queue := by
  simp [State.met]
@[simp] theorem State.met_arrival (s : State) (h : Header) : (s.met h).arrival = s.arrival := by
  simp [State.met]
@[simp] theorem State.met_lastFailure (s : State) (h : Header) : (s.met h).lastFailure = s.lastFailure := by
  simp [State.met]
@[simp] theorem State.met_forces (s : State) (h : Header) : (s.met h).forces = s.forces := by
  simp [State.met]
@[simp] theorem State.met_freezes (s : State) (h : Header) : (s.met h).freezes = s.freezes := by
  simp [State.met]
@[simp] theorem State.met_masters (s : State) (h : Header) : (s.met h).masters = s.masters := by
  simp [State.met]
@[simp] theorem State.met_workLight (s : State) (h : Header) : (s.met h).workLight = s.workLight := by
  simp [State.met]
@[simp] theorem State.met_wltPin (s : State) (h : Header) : (s.met h).wltPin = s.wltPin := by
  simp [State.met]
@[simp] theorem State.met_wltSample (s : State) (h : Header) : (s.met h).wltSample = s.wltSample := by
  simp [State.met]
@[simp] theorem State.met_wltRendered (s : State) (h : Header) : (s.met h).wltRendered = s.wltRendered := by
  simp [State.met]
@[simp] theorem State.met_lines (s : State) (h : Header) : (s.met h).lines = s.lines := by
  simp [State.met]
@[simp] theorem State.met_inputs (s : State) (h : Header) : (s.met h).inputs = s.inputs := by
  simp [State.met]
@[simp] theorem State.met_tiles (s : State) (h : Header) : (s.met h).tiles = s.tiles := by
  simp [State.met]
@[simp] theorem State.met_links (s : State) (h : Header) : (s.met h).links = s.links := by
  simp [State.met]
@[simp] theorem State.met_plates (s : State) (h : Header) : (s.met h).plates = s.plates := by
  simp [State.met]
@[simp] theorem State.met_descriptors (s : State) (h : Header) : (s.met h).descriptors = s.descriptors := by
  simp [State.met]
@[simp] theorem State.met_descriptorFree (s : State) (h : Header) : (s.met h).descriptorFree = s.descriptorFree := by
  simp [State.met]
@[simp] theorem State.met_fetches (s : State) (h : Header) : (s.met h).fetches = s.fetches := by
  simp [State.met]
@[simp] theorem State.met_draws (s : State) (h : Header) : (s.met h).draws = s.draws := by
  simp [State.met]
@[simp] theorem State.met_cues (s : State) (h : Header) : (s.met h).cues = s.cues := by
  simp [State.met]
@[simp] theorem State.met_actions (s : State) (h : Header) : (s.met h).actions = s.actions := by
  simp [State.met]
@[simp] theorem State.met_actionFree (s : State) (h : Header) : (s.met h).actionFree = s.actionFree := by
  simp [State.met]
@[simp] theorem State.met_lists (s : State) (h : Header) : (s.met h).lists = s.lists := by
  simp [State.met]
@[simp] theorem State.met_work (s : State) (h : Header) : (s.met h).work = s.work := by
  simp [State.met]
@[simp] theorem State.met_mask (s : State) (h : Header) : (s.met h).mask = s.mask := by
  simp [State.met]

/-! ### Records -/

@[simp] theorem State.met_point (s : State) (h : Header) (p : Nat) : (s.met h).point p = s.point p := by
  unfold State.point
  rw [State.met_points]
@[simp] theorem State.met_occupant (s : State) (h : Header) (k : Nat) : (s.met h).occupant k = s.occupant k := by
  unfold State.occupant
  rw [State.met_occupancy]
@[simp] theorem State.met_group (s : State) (h : Header) (g : Nat) : (s.met h).group g = s.group g := by
  unfold State.group
  rw [State.met_groups]
@[simp] theorem State.met_curve (s : State) (h : Header) (c : Nat) : (s.met h).curve c = s.curve c := by
  unfold State.curve
  rw [State.met_curves]
@[simp] theorem State.met_result (s : State) (h : Header) (p : Nat) : (s.met h).result p = s.result p := by
  unfold State.result
  rw [State.met_results]
@[simp] theorem State.met_slot (s : State) (h : Header) (k : Nat) : (s.met h).slot k = s.slot k := by
  unfold State.slot
  rw [State.met_slots]
@[simp] theorem State.met_force (s : State) (h : Header) (p : Nat) : (s.met h).force p = s.force p := by
  unfold State.force
  rw [State.met_forces]
@[simp] theorem State.met_freezeCount (s : State) (h : Header) (g : Nat) : (s.met h).freezeCount g = s.freezeCount g := by
  unfold State.freezeCount
  rw [State.met_freezes]
@[simp] theorem State.met_master (s : State) (h : Header) (m : Nat) : (s.met h).master m = s.master m := by
  unfold State.master
  rw [State.met_masters]
@[simp] theorem State.met_line (s : State) (h : Header) (l : Nat) : (s.met h).line l = s.line l := by
  unfold State.line
  rw [State.met_lines]
@[simp] theorem State.met_input (s : State) (h : Header) (i : Nat) : (s.met h).input i = s.input i := by
  unfold State.input
  rw [State.met_inputs]
@[simp] theorem State.met_tile (s : State) (h : Header) (t : Nat) : (s.met h).tile t = s.tile t := by
  unfold State.tile
  rw [State.met_tiles]
@[simp] theorem State.met_link (s : State) (h : Header) (l : Nat) : (s.met h).link l = s.link l := by
  unfold State.link
  rw [State.met_links]
@[simp] theorem State.met_plate (s : State) (h : Header) (p : Nat) : (s.met h).plate p = s.plate p := by
  unfold State.plate
  rw [State.met_plates]
@[simp] theorem State.met_descriptor (s : State) (h : Header) (d : Nat) : (s.met h).descriptor d = s.descriptor d := by
  unfold State.descriptor
  rw [State.met_descriptors]
@[simp] theorem State.met_cue (s : State) (h : Header) (c : Nat) : (s.met h).cue c = s.cue c := by
  unfold State.cue
  rw [State.met_cues]
@[simp] theorem State.met_action (s : State) (h : Header) (a : Nat) : (s.met h).action a = s.action a := by
  unfold State.action
  rw [State.met_actions]
@[simp] theorem State.met_list (s : State) (h : Header) (l : Nat) : (s.met h).list l = s.list l := by
  unfold State.list
  rw [State.met_lists]
@[simp] theorem State.met_named (s : State) (h : Header) (o n : Nat) : (s.met h).named o n = s.named o n := by
  unfold State.named
  rw [State.met_names]

/-- A store's readers over a state whose store is the same. -/
theorem State.source_of_sources {s t : State} (h : t.sources = s.sources) (n : Nat) : t.source n = s.source n := by
  unfold State.source
  rw [h]

@[simp] theorem State.endTransaction_source (s : State) (t n : Nat) : (s.endTransaction t).source n = s.source n :=
  State.source_of_sources (State.endTransaction_sources s t) n

theorem State.raise_source (s : State) (k : EventKind) (n : Nat) : (s.raise k).source n = s.source n := rfl

/-- The source of a frame after its reload: LIVE with its counter at the reload, and nothing else changed; the other
sources stay. -/
theorem State.reloadSource_source (s : State) (n m : Nat) :
    (s.reloadSource n).source m =
      if m = n then { s.source n with counter := (s.source n).reload, state := .live } else s.source m := by
  unfold State.reloadSource State.loadLiveness
  dsimp only
  by_cases h : m = n
  · subst h
    split
    · rw [State.raise_source, State.source_setSource, State.source_setSource, if_pos rfl]
    · rename_i hl
      have : (s.source m).state = .live := by
        cases h : (s.source m).state
        · rfl
        · exact absurd h hl
      rw [State.source_setSource, if_pos rfl, ← this]
  · rw [if_neg h]
    split
    · rw [State.raise_source, State.source_setSource_other _ _ _ _ h, State.source_setSource_other _ _ _ _ h]
    · rw [State.source_setSource_other _ _ _ _ h]

/-- The source of a frame as its own checks meet it. -/
theorem State.met_source (s : State) (h : Header) (n : Nat) :
    (s.met h).source n =
      if n = h.src then { s.source h.src with counter := (s.source h.src).reload, state := .live } else s.source n := by
  rw [State.met, State.reloadSource_source]
  simp

theorem State.met_source_other (s : State) (h : Header) (n : Nat) (hn : n ≠ h.src) : (s.met h).source n = s.source n := by
  rw [State.met_source, if_neg hn]

@[simp] theorem State.met_source_priority (s : State) (h : Header) (n : Nat) :
    ((s.met h).source n).priority = (s.source n).priority := by
  rw [State.met_source]
  split <;> simp_all
@[simp] theorem State.met_source_ceiling (s : State) (h : Header) (n : Nat) :
    ((s.met h).source n).ceiling = (s.source n).ceiling := by
  rw [State.met_source]
  split <;> simp_all
@[simp] theorem State.met_source_quota (s : State) (h : Header) (n : Nat) :
    ((s.met h).source n).quota = (s.source n).quota := by
  rw [State.met_source]
  split <;> simp_all
@[simp] theorem State.met_source_live (s : State) (h : Header) (n : Nat) :
    ((s.met h).source n).live = (s.source n).live := by
  rw [State.met_source]
  split <;> simp_all
@[simp] theorem State.met_source_mayForce (s : State) (h : Header) (n : Nat) :
    ((s.met h).source n).mayForce = (s.source n).mayForce := by
  rw [State.met_source]
  split <;> simp_all
@[simp] theorem State.met_source_lossFade (s : State) (h : Header) (n : Nat) :
    ((s.met h).source n).lossFade = (s.source n).lossFade := by
  rw [State.met_source]
  split <;> simp_all
@[simp] theorem State.met_source_reload (s : State) (h : Header) (n : Nat) :
    ((s.met h).source n).reload = (s.source n).reload := by
  rw [State.met_source]
  split <;> simp_all
@[simp] theorem State.met_source_applyFails (s : State) (h : Header) (n : Nat) :
    ((s.met h).source n).applyFails = (s.source n).applyFails := by
  rw [State.met_source]
  split <;> simp_all

/-! ### What the checks of the commands read -/

@[simp] theorem State.met_groupInUse (s : State) (h : Header) (g : Nat) : (s.met h).groupInUse g = s.groupInUse g := by
  simp [State.groupInUse, State.slotsWhere, State.cueHolds]

@[simp] theorem State.met_slotsWhere (s : State) (h : Header) (f : Contribution → Bool) :
    (s.met h).slotsWhere f = s.slotsWhere f := by
  simp [State.slotsWhere]

@[simp] theorem State.met_selectorValid (s : State) (h : Header) (x : Selector) :
    (s.met h).selectorValid x = s.selectorValid x := by
  simp [State.selectorValid]

@[simp] theorem State.met_coveredPoint (s : State) (h : Header) (x : Selector) (i : Nat) :
    (s.met h).coveredPoint x i = s.coveredPoint x i := by
  simp [State.coveredPoint]

@[simp] theorem State.met_sourceOutOfRange (s : State) (h : Header) (x : Selector) (f : Nat → Nat) :
    (s.met h).sourceOutOfRange x f = s.sourceOutOfRange x f := by
  simp [State.sourceOutOfRange]

@[simp] theorem State.met_forceUnsuits (s : State) (h : Header) (x : Selector) (m : ForceMode) (v : LevelSpec) :
    (s.met h).forceUnsuits x m v = s.forceUnsuits x m v := by
  simp [State.forceUnsuits]

@[simp] theorem State.met_freezable (s : State) (h : Header) (g : Nat) : (s.met h).freezable g = s.freezable g := by
  simp [State.freezable]

@[simp] theorem State.met_queueRoom (s : State) (h : Header) : (s.met h).queueRoom = s.queueRoom := by
  simp [State.queueRoom]

@[simp] theorem State.met_freeSlot (s : State) (h : Header) : (s.met h).freeSlot = s.freeSlot := by
  simp [State.freeSlot]

@[simp] theorem State.met_mayEdit (s : State) (h h' : Header) (l : Nat) : (s.met h).mayEdit h' l = s.mayEdit h' l := by
  simp [State.mayEdit]

@[simp] theorem State.met_actionOf (s : State) (h : Header) (a : ActionField) : (s.met h).actionOf a = s.actionOf a := by
  unfold State.actionOf
  split <;> simp [State.takeActionOf]

/-! ### A frame that reaches its own checks (R186) -/

/-- No tick is taken where no source with an outstanding tick has another counter than before, or one of 1. -/
theorem State.takeLoadedTicks_same (old s : State)
    (h : ∀ n ∈ s.work.lossDue, (s.source n).counter = (old.source n).counter ∨ (s.source n).counter = 1) :
    State.takeLoadedTicks old s = s := by
  have go (n : Nat) : State.takeLoadedTick old s n = s := by
    unfold State.takeLoadedTick
    rw [if_neg]
    rintro ⟨hn, h1, h2⟩
    exact (h n hn).elim h1 h2
  have all (l : List Nat) : s.each (State.takeLoadedTick old) l = s := by
    induction l with
    | nil => rfl
    | cons n ns ih => simp only [State.each, go, ih]
  exact all _

theorem State.resume_self (s : State) (code : Byte) (st : Status) (c : Bool) (f : List Byte) :
    State.resume s (s.replyWith code st c f) = s.replyWith code st c f := by
  have e : State.takeLoadedTicks s (s.replyWith code st c f) = s.replyWith code st c f :=
    State.takeLoadedTicks_same _ _ fun n _ => .inl rfl
  simp [State.resume, e]

/-- A frame that passes checks 1 to 7 is answered by its own checks and effect. -/
theorem State.takeFrame_admitted (s : State) (h : Header) (i : Instr) (a : Admitted s h i) :
    s.takeFrame h i = State.resume (s.endTransaction h.time)
      ((s.judged h i).answer (i.code?.getD 0) (i.own (s.endTransaction h.time) (s.judged h i))) := by
  obtain ⟨hd, hc, hl, hs, hm, hb⟩ := a
  have hbusy : (s.endTransaction h.time).busy = false := by simp [State.busy, hd, hc]
  unfold State.takeFrame State.judgeFrame State.judgeCommand
  rw [hm]
  simp [hd, hbusy, Nat.not_lt.2 hl, Nat.not_lt.2 hs, hb, State.met, State.judged]

/-- An admitted frame that its own checks accept. -/
theorem State.takeFrame_accepted (s t : State) (h : Header) (i : Instr) (c : Bool) (f : List Byte) (a : Admitted s h i)
    (ho : i.own (s.endTransaction h.time) (s.judged h i) = .accept t c f) : s.takeFrame h i = s.accepted h i t c f := by
  rw [State.takeFrame_admitted s h i a, ho]
  rfl

/-- An admitted frame that its own checks refuse. -/
theorem State.takeFrame_refusedAt (s : State) (h : Header) (i : Instr) (st : Status) (a : Admitted s h i)
    (ho : i.own (s.endTransaction h.time) (s.judged h i) = .refuse st) : s.takeFrame h i = s.refusedAt h i st := by
  rw [State.takeFrame_admitted s h i a, ho]
  rfl

/-- As `takeFrame_refusedAt`, of a command that awaits nothing. -/
theorem State.takeFrame_refused (s : State) (h : Header) (i : Instr) (st : Status) (a : Admitted s h i)
    (hw : s.judged h i = s.met h) (ho : i.own (s.endTransaction h.time) (s.met h) = .refuse st) :
    s.takeFrame h i = s.refused h i st := by
  rw [State.takeFrame_refusedAt s h i st a (hw ▸ ho), State.refusedAt, hw]
  rfl

end Sys2Proof.Machine
end

