-- ==== Sys2Proof/Laws/PerInstr.lean ====
section
/-! SUPPORT. The family `Spelled`, one lemma a constructor: a row that is a structured command frame has a header, a code
of the command summary (11.7) and frame bytes; an event row and the raw frame have none of the three. -/

namespace Sys2Proof.Laws.Spelled

/-- A row has a header exactly where it has a command code and frame bytes, and its code is one of the summary's. -/
def Statement (i : Instr) : Prop :=
  i.code?.isSome = i.header?.isSome ∧ (encodeFrame i).isSome = i.header?.isSome ∧ i.code?.all commandCodes.contains = true

theorem transactionBegin : Statement (.transactionBegin) := ⟨rfl, rfl, rfl⟩
theorem unknownCommand (time : Nat) (bytes : List Byte) : Statement (.unknownCommand time bytes) := ⟨rfl, rfl, rfl⟩
theorem nop (h : Header) : Statement (.nop h) := ⟨rfl, rfl, rfl⟩
theorem readEvents (h : Header) : Statement (.readEvents h) := ⟨rfl, rfl, rfl⟩
theorem setEventMask (h : Header) (mask : Half) : Statement (.setEventMask h mask) := ⟨rfl, rfl, rfl⟩
theorem softClear (h : Header) : Statement (.softClear h) := ⟨rfl, rfl, rfl⟩
theorem softClearComplete : Statement (.softClearComplete) := ⟨rfl, rfl, rfl⟩
theorem setTiming (h : Header) (rate enable : Byte) (limit : Half) : Statement (.setTiming h rate enable limit) := ⟨rfl, rfl, rfl⟩
theorem setFrame (h : Header) (value : Word) : Statement (.setFrame h value) := ⟨rfl, rfl, rfl⟩
theorem readTiming (h : Header) : Statement (.readTiming h) := ⟨rfl, rfl, rfl⟩
theorem setPoint (h : Header) (b : SetPointBody) : Statement (.setPoint h b) := ⟨rfl, rfl, rfl⟩
theorem setPointApply : Statement (.setPointApply) := ⟨rfl, rfl, rfl⟩
theorem bindPoint (h : Header) (point : Half) (binding : BindingField) : Statement (.bindPoint h point binding) := ⟨rfl, rfl, rfl⟩
theorem bindPointApply : Statement (.bindPointApply) := ⟨rfl, rfl, rfl⟩
theorem loadCurve (h : Header) (curve : Byte) (knots : List Half) : Statement (.loadCurve h curve knots) := ⟨rfl, rfl, rfl⟩
theorem loadCurveApply : Statement (.loadCurveApply) := ⟨rfl, rfl, rfl⟩
theorem defineGroup (h : Header) (b : DefineGroupBody) : Statement (.defineGroup h b) := ⟨rfl, rfl, rfl⟩
theorem readPoint (h : Header) (point : Half) : Statement (.readPoint h point) := ⟨rfl, rfl, rfl⟩
theorem readGroup (h : Header) (group : Byte) : Statement (.readGroup h group) := ⟨rfl, rfl, rfl⟩
theorem readCurve (h : Header) (curve : Byte) : Statement (.readCurve h curve) := ⟨rfl, rfl, rfl⟩
theorem setSource (h : Header) (b : SetSourceBody) : Statement (.setSource h b) := ⟨rfl, rfl, rfl⟩
theorem setSupervision (h : Header) (interval : Byte) : Statement (.setSupervision h interval) := ⟨rfl, rfl, rfl⟩
theorem touch (h : Header) : Statement (.touch h) := ⟨rfl, rfl, rfl⟩
theorem readSource (h : Header) (target clear : Byte) : Statement (.readSource h target clear) := ⟨rfl, rfl, rfl⟩
theorem take (h : Header) (b : TakeBody) : Statement (.take h b) := ⟨rfl, rfl, rfl⟩
theorem takeApply : Statement (.takeApply) := ⟨rfl, rfl, rfl⟩
theorem release (h : Header) (address : AddressField) : Statement (.release h address) := ⟨rfl, rfl, rfl⟩
theorem releaseApply : Statement (.releaseApply) := ⟨rfl, rfl, rfl⟩
theorem releaseSource (h : Header) (target : Byte) : Statement (.releaseSource h target) := ⟨rfl, rfl, rfl⟩
theorem releaseSourceApply : Statement (.releaseSourceApply) := ⟨rfl, rfl, rfl⟩
theorem pause (h : Header) (address : AddressField) : Statement (.pause h address) := ⟨rfl, rfl, rfl⟩
theorem pauseApply : Statement (.pauseApply) := ⟨rfl, rfl, rfl⟩
theorem resume (h : Header) (address : AddressField) : Statement (.resume h address) := ⟨rfl, rfl, rfl⟩
theorem resumeApply : Statement (.resumeApply) := ⟨rfl, rfl, rfl⟩
theorem readContribution (h : Header) (address : ReadAddressField) (window : Option Window) : Statement (.readContribution h address window) := ⟨rfl, rfl, rfl⟩
theorem flush (h : Header) (target : Byte) (arrival : Option Word) : Statement (.flush h target arrival) := ⟨rfl, rfl, rfl⟩
theorem readQueue (h : Header) (first count : Byte) : Statement (.readQueue h first count) := ⟨rfl, rfl, rfl⟩
theorem forceSet (h : Header) (selector : SelectorField) (mode : Byte) (value : Half) : Statement (.forceSet h selector mode value) := ⟨rfl, rfl, rfl⟩
theorem forceSetApply : Statement (.forceSetApply) := ⟨rfl, rfl, rfl⟩
theorem forceClear (h : Header) (selector : SelectorField) : Statement (.forceClear h selector) := ⟨rfl, rfl, rfl⟩
theorem forceClearApply : Statement (.forceClearApply) := ⟨rfl, rfl, rfl⟩
theorem freeze (h : Header) (group : Byte) : Statement (.freeze h group) := ⟨rfl, rfl, rfl⟩
theorem freezeApply : Statement (.freezeApply) := ⟨rfl, rfl, rfl⟩
theorem thaw (h : Header) (group : Byte) : Statement (.thaw h group) := ⟨rfl, rfl, rfl⟩
theorem thawApply : Statement (.thawApply) := ⟨rfl, rfl, rfl⟩
theorem masterSet (h : Header) (master : Byte) (target fade : Half) : Statement (.masterSet h master target fade) := ⟨rfl, rfl, rfl⟩
theorem masterSetApply : Statement (.masterSetApply) := ⟨rfl, rfl, rfl⟩
theorem setWorklightLevel (h : Header) (level : Half) : Statement (.setWorklightLevel h level) := ⟨rfl, rfl, rfl⟩
theorem setWorklightLevelApply : Statement (.setWorklightLevelApply) := ⟨rfl, rfl, rfl⟩
theorem readOverrides (h : Header) (window : Option Window) : Statement (.readOverrides h window) := ⟨rfl, rfl, rfl⟩
theorem setLine (h : Header) (line enabled : Byte) (count : Half) (rate : Byte) : Statement (.setLine h line enabled count rate) := ⟨rfl, rfl, rfl⟩
theorem readLine (h : Header) (line clear : Byte) : Statement (.readLine h line clear) := ⟨rfl, rfl, rfl⟩
theorem setInput (h : Header) (input enabled : Byte) : Statement (.setInput h input enabled) := ⟨rfl, rfl, rfl⟩
theorem readInput (h : Header) (input clear : Byte) : Statement (.readInput h input clear) := ⟨rfl, rfl, rfl⟩
theorem loadPlate (h : Header) (b : LoadPlateBody) : Statement (.loadPlate h b) := ⟨rfl, rfl, rfl⟩
theorem platePlay (h : Header) (plate : Byte) : Statement (.platePlay h plate) := ⟨rfl, rfl, rfl⟩
theorem platePlayApply : Statement (.platePlayApply) := ⟨rfl, rfl, rfl⟩
theorem plateStop (h : Header) (plate : Byte) : Statement (.plateStop h plate) := ⟨rfl, rfl, rfl⟩
theorem plateStopApply : Statement (.plateStopApply) := ⟨rfl, rfl, rfl⟩
theorem setTile (h : Header) (b : SetTileBody) : Statement (.setTile h b) := ⟨rfl, rfl, rfl⟩
theorem setTileApply : Statement (.setTileApply) := ⟨rfl, rfl, rfl⟩
theorem setLink (h : Header) (link wake : Byte) (idle : Half) : Statement (.setLink h link wake idle) := ⟨rfl, rfl, rfl⟩
theorem readTile (h : Header) (tile clear : Byte) : Statement (.readTile h tile clear) := ⟨rfl, rfl, rfl⟩
theorem readLink (h : Header) (link clear : Byte) : Statement (.readLink h link clear) := ⟨rfl, rfl, rfl⟩
theorem readPlate (h : Header) (plate clear : Byte) (window : Option Window) : Statement (.readPlate h plate clear window) := ⟨rfl, rfl, rfl⟩
theorem loadCue (h : Header) (b : LoadCueBody) : Statement (.loadCue h b) := ⟨rfl, rfl, rfl⟩
theorem linkCue (h : Header) (list : Byte) (cue : Half) (position : PositionField) : Statement (.linkCue h list cue position) := ⟨rfl, rfl, rfl⟩
theorem unlinkCue (h : Header) (cue : Half) : Statement (.unlinkCue h cue) := ⟨rfl, rfl, rfl⟩
theorem eraseCue (h : Header) (cue : Half) : Statement (.eraseCue h cue) := ⟨rfl, rfl, rfl⟩
theorem setList (h : Header) (list acting loop : Byte) : Statement (.setList h list acting loop) := ⟨rfl, rfl, rfl⟩
theorem startList (h : Header) (list : Byte) : Statement (.startList h list) := ⟨rfl, rfl, rfl⟩
theorem stopList (h : Header) (list : Byte) : Statement (.stopList h list) := ⟨rfl, rfl, rfl⟩
theorem go (h : Header) (list : Byte) : Statement (.go h list) := ⟨rfl, rfl, rfl⟩
theorem readCue (h : Header) (cue : Half) (window : Option Window) : Statement (.readCue h cue window) := ⟨rfl, rfl, rfl⟩
theorem readList (h : Header) (list : Byte) : Statement (.readList h list) := ⟨rfl, rfl, rfl⟩
theorem resetFall : Statement (.resetFall) := ⟨rfl, rfl, rfl⟩
theorem resetRise : Statement (.resetRise) := ⟨rfl, rfl, rfl⟩
theorem initialisationEnd (time : Nat) : Statement (.initialisationEnd time) := ⟨rfl, rfl, rfl⟩
theorem refPulse (time : Nat) : Statement (.refPulse time) := ⟨rfl, rfl, rfl⟩
theorem lossDeadline : Statement (.lossDeadline) := ⟨rfl, rfl, rfl⟩
theorem localTimerExpiry : Statement (.localTimerExpiry) := ⟨rfl, rfl, rfl⟩
theorem holdoverEnd : Statement (.holdoverEnd) := ⟨rfl, rfl, rfl⟩
theorem sourceLost (source : Fin 5) : Statement (.sourceLost source) := ⟨rfl, rfl, rfl⟩
theorem fadeInComplete (slot : Fin 192) : Statement (.fadeInComplete slot) := ⟨rfl, rfl, rfl⟩
theorem fadeOutComplete (slot : Fin 192) : Statement (.fadeOutComplete slot) := ⟨rfl, rfl, rfl⟩
theorem masterFadeEnd (master : Fin 4) : Statement (.masterFadeEnd master) := ⟨rfl, rfl, rfl⟩
theorem cueFire : Statement (.cueFire) := ⟨rfl, rfl, rfl⟩
theorem plateHoldExpiry (plate : Fin 8) : Statement (.plateHoldExpiry plate) := ⟨rfl, rfl, rfl⟩
theorem dissolveEnd (tile : Fin 64) : Statement (.dissolveEnd tile) := ⟨rfl, rfl, rfl⟩
theorem linkWakeComplete (link : Fin 4) : Statement (.linkWakeComplete link) := ⟨rfl, rfl, rfl⟩
theorem renderComplete : Statement (.renderComplete) := ⟨rfl, rfl, rfl⟩
theorem linkIdleExpiry (link : Fin 4) : Statement (.linkIdleExpiry link) := ⟨rfl, rfl, rfl⟩
theorem lineFrameEnd (line : Fin 8) : Statement (.lineFrameEnd line) := ⟨rfl, rfl, rfl⟩
theorem tilePacketEnd (link : Fin 4) : Statement (.tilePacketEnd link) := ⟨rfl, rfl, rfl⟩
theorem readCompletion (words : List Word) : Statement (.readCompletion words) := ⟨rfl, rfl, rfl⟩
theorem readError : Statement (.readError) := ⟨rfl, rfl, rfl⟩
theorem wltChange (asserted : Bool) : Statement (.wltChange asserted) := ⟨rfl, rfl, rfl⟩
theorem signalPresentChange (input : Fin 4) (present : Bool) : Statement (.signalPresentChange input present) := ⟨rfl, rfl, rfl⟩

end Sys2Proof.Laws.Spelled
end

