-- ==== Sys2Proof/Tests/Slice0.lean ====
section
/-! SUPPORT. The model's own tests. First the well-formedness checks, each with a term it refuses; then worked examples of
the spec, one step each on a small state; then, for every statement of Certificates/Slice0/Obligations.lean that has
hypotheses, a concrete state and operands that meet them, at a boundary value of each clause's range. -/

-- One thread: checked in parallel, this file's theorems need more thread stacks than the memory limit allows.
set_option Elab.async false

namespace Sys2Proof.Tests

open Sys2Proof.Machine

/-- A header of a source at timebase time 100. -/
def hdr (src : Byte) (mods : List Modifier := []) : Header := ⟨100, src, mods⟩

/-- The next state of one command or event. -/
def after (i : Instr) (s : State) : State :=
  match exec i s with
  | .next t => t
  | .fault _ => s
  | .refused _ => s

/-- The next state of several, in order. -/
def afterAll (is : List Instr) (s : State) : State := is.foldl (fun t i => after i t) s

/-! ### Well-formedness: each check refuses a term -/

theorem test_wf_refuses_header : Header.wf (hdr 0 (List.replicate 256 ⟨1, 0⟩)) = false := by decide +kernel
theorem test_wf_refuses_binding : Instr.wf (.bindPoint (hdr 0) 0 (.unknown 2)) = false := by decide
theorem test_wf_refuses_address : Instr.wf (.release (hdr 0) (.unknown 1)) = false := by decide
theorem test_wf_refuses_read_address : Instr.wf (.readContribution (hdr 0) (.unknown 2) none) = false := by decide
theorem test_wf_refuses_tail_behind_unknown :
    Instr.wf (.readContribution (hdr 0) (.unknown 3) (some ⟨0, 1⟩)) = false := by decide
theorem test_wf_refuses_window : Instr.wf (.readOverrides (hdr 0) (some ⟨65535, 65535⟩)) = false := by decide
theorem test_wf_refuses_wide_window : Instr.wf (.readCue (hdr 0) 0 (some ⟨256, 1⟩)) = false := by decide
theorem test_wf_refuses_plate_without_first :
    Instr.wf (.loadPlate (hdr 0) ⟨0, 0, 0, none, []⟩) = false := by decide
theorem test_wf_refuses_cue_without_trigger : Instr.wf (.loadCue (hdr 0) ⟨0, 0, 0, none, []⟩) = false := by decide
theorem test_wf_refuses_trigger : Instr.wf (.loadCue (hdr 0) ⟨0, 0, 0, some (.unknown 2), []⟩) = false := by decide
theorem test_wf_refuses_level :
    Instr.wf (.loadCue (hdr 0) ⟨0, 0, 1, none, [.forceSet ⟨0, 0, 1, 0⟩ 1 (.unknown 1)]⟩) = false := by decide
theorem test_wf_refuses_action : Instr.wf (.loadCue (hdr 0) ⟨0, 0, 1, none, [.unknown 11]⟩) = false := by decide
theorem test_wf_refuses_action_behind_unknown :
    Instr.wf (.loadCue (hdr 0) ⟨0, 0, 1, none, [.unknown 12, .releaseSource]⟩) = false := by decide
theorem test_wf_refuses_position : Instr.wf (.linkCue (hdr 0) 0 0 (.unknown 1)) = false := by decide
theorem test_wf_refuses_long_line : Instr.wf (.readCompletion (List.replicate 129 0)) = false := by decide +kernel
theorem test_wf_refuses_long_body (h : Header) (c : Byte) (ks : List Half) (hk : ks.length = 32768) :
    Instr.wf (.loadCurve h c ks) = false := by
  have two : ∀ l : List Half, (l.flatMap be16).length = 2 * l.length := by
    intro l
    induction l with
    | nil => rfl
    | cons k l ih => rw [List.flatMap_cons, List.length_append, ih, List.length_cons]; simp [be16]; omega
  have len : (Instr.bodyBytes (.loadCurve h c ks)).length = 65537 := by
    show (c :: ks.flatMap be16).length = _
    rw [List.length_cons, two, hk]
  simp [Instr.wf, len]
theorem test_wf_accepts : Instr.wf (.release (hdr 0) (.unknown 2)) = true := by decide

/-! ### Frames written out byte by byte from 11.8 -/

/-- SET_FRAME from source 1 to frame 0x01020304. -/
theorem test_decode_setFrame :
    splitFrame [0x09, 1, 0, 0, 4, 1, 2, 3, 4] = some ⟨0x09, 1, [], [1, 2, 3, 4]⟩ ∧
      decodeBody (hdr 1) 0x09 [1, 2, 3, 4] = some (.setFrame (hdr 1) 0x01020304) := by decide

/-- SET_WORKLIGHT_LEVEL with a DELAY of 50 frames: the modifier entry stands before the body. -/
theorem test_decode_modifier :
    splitFrame [0x35, 1, 1, 0, 2, 3, 0, 0, 0, 50, 0x80, 0x00] = some ⟨0x35, 1, [⟨3, 50⟩], [0x80, 0x00]⟩ := by decide

/-- TAKE of name 7, group 2, elements 10 to 12, offset 1, UNIFORM, fades 25 and 50, policy RELEASE, target 40,000. -/
theorem test_decode_take :
    decodeBody (hdr 2) 0x20 [0, 7, 2, 0, 10, 0, 3, 1, 0, 0, 25, 0, 50, 1, 0x9C, 0x40] =
      some (.take (hdr 2) ⟨7, ⟨2, 10, 3, 1⟩, 0, 25, 50, 1, [40000]⟩) := by decide

/-- RELEASE by handle and by name; an address type above 1 is kept as unknown. -/
theorem test_decode_release :
    decodeBody (hdr 2) 0x21 [0, 191, 9] = some (.release (hdr 2) (.handle 191 9)) ∧
      decodeBody (hdr 2) 0x21 [1, 0x0F, 0xFF] = some (.release (hdr 2) (.name 4095)) ∧
      decodeBody (hdr 2) 0x21 [2] = some (.release (hdr 2) (.unknown 2)) := by decide

/-- A body whose length does not match its command's fields reads as none (R186, step 7). -/
theorem test_decode_refuses_length :
    decodeBody (hdr 2) 0x20 [0, 7] = none ∧ decodeBody (hdr 0) 0x01 [0] = none := by decide

/-- Zeros behind the stated length are ignored; another byte is not (R186, check 2). -/
theorem test_split_trailing :
    splitFrame [1, 0, 0, 0, 0, 0, 0] = some ⟨1, 0, [], []⟩ ∧ splitFrame [1, 0, 0, 0, 0, 7] = none ∧
      splitFrame [1, 0, 0, 0] = none := by decide

/-- One frame of every other family of the command summary, each from its body's fields in order (R188). -/
theorem test_decode_families :
    decodeBody (hdr 0) 0x03 [0x1F, 0xFF] = some (.setEventMask (hdr 0) 8191) ∧
      decodeBody (hdr 1) 0x08 [6, 1, 0x05, 0xDC] = some (.setTiming (hdr 1) 6 1 1500) ∧
      decodeBody (hdr 1) 0x10 [0x09, 0xFF, 3, 0, 12, 0, 255, 0xFF, 0xFE, 0] =
        some (.setPoint (hdr 1) ⟨2559, 3, 12, 0, 255, 65534, 0⟩) ∧
      decodeBody (hdr 1) 0x11 [0, 5, 2, 63, 4] = some (.bindPoint (hdr 1) 5 (.tile 63 4)) ∧
      decodeBody (hdr 1) 0x18 [4, 3, 8, 64, 0, 0, 50, 10] = some (.setSource (hdr 1) ⟨4, 3, 8, 64, 0, 50, 10⟩) ∧
      decodeBody (hdr 1) 0x30 [0, 0, 1, 0, 2, 0, 1, 0xFF, 0xFF] =
        some (.forceSet (hdr 1) ⟨0, 1, 2, 0⟩ 1 65535) ∧
      decodeBody (hdr 1) 0x38 [7, 1, 0x01, 0x80, 2] = some (.setLine (hdr 1) 7 1 384 2) ∧
      decodeBody (hdr 1) 0x45 [63, 1, 3, 15, 0x0E, 0x80, 0x07, 0xF0, 25] =
        some (.setTile (hdr 1) ⟨63, 1, 3, 15, 3712, 2032, 25⟩) ∧
      decodeBody (hdr 1) 0x42 [7, 0, 1, 0x0F, 0, 0x08, 0x70, 2, 1, 0, 0, 0x10, 0, 0x08, 0x70, 1, 0] =
        some (.loadPlate (hdr 1) ⟨7, 0, 1, some ⟨3840, 2160, 2, 1⟩, [⟨4096, 2160, 1, 0⟩]⟩) ∧
      decodeBody (hdr 1) 0x50 [0, 9, 1, 0, 2, 0, 50, 2, 7, 3] =
        some (.loadCue (hdr 1) ⟨9, 1, 0, some (.follow 50), [.releaseSource, .freeze 3]⟩) ∧
      decodeBody (hdr 1) 0x51 [0, 0, 9, 1, 0, 4] = some (.linkCue (hdr 1) 0 9 (.after 4)) := by decide

/-! ### Arithmetic: the examples of the Conventions and of chapter 6 -/

/-- The Conventions: the rounded mix of −5 × 1/2 is −3. -/
theorem test_rounded_mix_away_from_zero : roundedMix (-5) 1 2 = -3 ∧ roundedMix 5 1 2 = 3 := by decide

/-- The level product of 40,000 and 49,151 is 30,000. -/
theorem test_level_product : levelProduct 40000 49151 = 30000 ∧ levelProduct 65535 255 = 255 := by decide

/-- 22,000 × 20/50 is 8,800. -/
theorem test_mix_of_a_fade : mixLevel 0 22000 20 50 = 8800 := by decide

/-- The square-law curve of chapter 2. -/
def squareLaw : List Nat :=
  [0, 256, 1024, 2304, 4096, 6400, 9216, 12544, 16384, 20736, 25600, 30976, 36864, 43264, 50176, 57600, 65535]

/-- R110, the example of chapter 2: on the square law 10,000 gives 1,589; the ends keep their knots. -/
theorem test_curve :
    curveLevel squareLaw 10000 = 1589 ∧ curveLevel squareLaw 65535 = 65535 ∧ curveLevel squareLaw 0 = 0 := by decide

/-- 6.18, third row: FLOOR 10,000 over 5,000, master 0, work light 32,768, curve 2, offset +4,095: 20,479, slot 80. -/
theorem test_limit_case :
    let s := ({ State.reset with wltSample := true }.setMaster 0 { Master.por 0 with level := 0 }).setCurve 2 squareLaw
    let f : PointFields := { kind := .intensity, home := 0, curve := 2, master := some 0, offset := 4095, member := true }
    s.shapedLevel f (forceLevel (some ⟨.floor, 10000, 0⟩) 5000) = 20479 ∧ levelProduct 20479 255 = 80 := by
  decide +kernel

/-- A contribution as a point meets it, in slot k. -/
def coverOf (k priority : Nat) (sequence : Word) (level remaining length : Nat) : Cover :=
  { handle := ⟨k, 0⟩, priority, sequence, level, remaining, length }

/-- 6.15 at render n: X and Y in the band at 8, Z above it: 47,280 with winner Z; at n + 10, Z gone, Y at 43,200. -/
theorem test_worked_fade :
    mergeCovers .intensity 0 [coverOf 1 8 700 30000 0 1, coverOf 2 8 720 38800 0 1] [coverOf 3 12 690 60000 10 25] =
        ⟨47280, some ⟨3, 0⟩⟩ ∧
      mergeCovers .intensity 0 [coverOf 1 8 700 30000 0 1, coverOf 2 8 720 43200 0 1] [] = ⟨43200, some ⟨2, 0⟩⟩ := by
  decide

/-- 6.16: at n Q's mix equals B and S stays the winner, at n + 1 the greater is Q's; on a COLOUR point the older Q never
passes the sequence test. -/
theorem test_worked_succession :
    mergeCovers .intensity 0 [coverOf 1 8 2 50000 0 1] [coverOf 0 8 1 50000 4 4] = ⟨50000, some ⟨1, 0⟩⟩ ∧
      mergeCovers .intensity 0 [coverOf 1 8 2 42500 0 1] [coverOf 0 8 1 50000 3 4] = ⟨48125, some ⟨0, 0⟩⟩ ∧
      mergeCovers .colour 0 [coverOf 1 8 2 42500 0 1] [coverOf 0 8 1 50000 3 4] = ⟨42500, some ⟨1, 0⟩⟩ := by decide

/-- 6.17: D released from priority 10 keeps the point at its 7, from priority 6 the point is A's. -/
theorem test_worked_source :
    mergeCovers .source 0 [coverOf 0 8 1 2 0 1] [coverOf 1 10 2 7 5 10] = ⟨7, some ⟨1, 0⟩⟩ ∧
      mergeCovers .source 0 [coverOf 0 8 1 2 0 1] [coverOf 1 6 2 7 5 10] = ⟨2, some ⟨0, 0⟩⟩ := by decide

/-- Chapter 7: a master at 49,151 that fades to 65,535 over 2 frames stands at 57,343 half way. -/
theorem test_mix_of_a_master : mixLevel 49151 65535 1 2 = 57343 := by decide

/-- R15: frame 5 is 11 frames after frame 4,294,967,290. -/
theorem test_frame_numbers_wrap : isBefore 4294967290 5 = true ∧ signedDiff 5 4294967290 = 11 := by decide

/-- R2: nominal periods differ by rate code, and an interval off by N/256 is good, by one more not. -/
theorem test_good_interval :
    goodInterval 1080000 (1080000 + 4218) = true ∧ goodInterval 1080000 (1080000 + 4219) = false := by decide

/-! ### One step each -/

/-- R15, R188: the reply of NOP is OK with no fields. -/
theorem test_nop : (after (.nop (hdr 2)) State.reset).reply = [0xA5, 0x01, 0, 0, 0, 0] := by decide

/-- R186: a frame whose code no row of the summary has is UNKNOWN_COMMAND; one of four bytes is BAD_LENGTH. -/
theorem test_unknown_command :
    (after (.unknownCommand 100 [0x05, 2, 0, 0, 0]) State.reset).reply = [0xA5, 0x05, 3, 0, 0, 0] ∧
      (after (.unknownCommand 100 [0x01, 2, 0, 0]) State.reset).reply = [0xA5, 0x01, 2, 0, 0, 0] := by decide +kernel

/-- R185: the fall of CS# latches the reply, and the buffer is consumed. -/
theorem test_transaction :
    (after .transactionBegin { State.reset with reply := [1] }).outgoing = [1] ∧
      (after .transactionBegin { State.reset with reply := [1] }).reply = [] := by decide

/-- R185: MISO carries the reply and then bytes of 0, and as many bytes as are clocked. -/
theorem test_miso :
    ({ State.reset with outgoing := [7, 9] } : State).miso 4 = [7, 9, 0, 0] ∧
      ({ State.reset with outgoing := [7, 9] } : State).miso 1 = [7] := by decide

/-- R59, R186: FAN on a LIST TAKE whose body has an odd count of target bytes is MODIFIER_INVALID (check 6 before 7). -/
theorem test_fan_on_list :
    (after (.unknownCommand 100
      [0x20, 2, 1, 0, 15, 5, 0, 0, 0, 1, 0, 7, 2, 0, 10, 0, 3, 1, 1, 0, 25, 0, 50, 1, 0x9C]) State.reset).reply =
      [0xA5, 0x20, 5, 0, 0, 0] := by decide +kernel

/-- R50: AUTOMATION sets its own reload with its tick outstanding; the frame is taken first, so its reply has the new
reload whole and the tick is taken from it; at a reload of 1 the tick is left to SOURCE_LOST. -/
theorem test_reload_of_itself :
    let s := (State.reset.setSource 1 { Source.por 1 with reload := 3, counter := 1 }).setWork
      { Work.none with lossDue := [1] }
    let reloaded (r : Byte) := after (.setSource (hdr 1) ⟨1, 8, 12, 64, 1, 50, r⟩) s
    ((reloaded 9).source 1).counter = 8 ∧ (reloaded 9).work.lossDue = [] ∧ ((reloaded 9).reply.drop 14).take 2 = [9, 0] ∧
      ((reloaded 1).source 1).counter = 1 ∧ (reloaded 1).work.lossDue = [1] := by decide +kernel

/-- R50, R13: AUTOMATION's SET_TIMING issues a frame start with its own tick outstanding: the frame is taken first, so the
tick falls from the reload of 3 to 2 and the source stays LIVE; from a reload of 1 it is LOST at that tick. -/
theorem test_set_timing_before_tick :
    let s (r : Nat) := (State.reset.setSource 1 { Source.por 1 with reload := r, counter := 1 }).setWork
      { Work.none with phase := .applying, lossDue := [1] }
    let timed (r : Nat) := (after (.setTiming ⟨500000, 1, []⟩ 6 1 0) (s r))
    (timed 3).timer.counter = 1 ∧ ((timed 3).source 1).counter = 2 ∧ ((timed 3).source 1).state = .live ∧
      ((timed 3).event 4).pending = false ∧ ((timed 1).source 1).state = .lost ∧ ((timed 1).source 1).counter = 0 := by
  decide +kernel

/-- R187: two TIME modifiers clash; a FADE on an immediate command is not taken. -/
theorem test_modifiers :
    (after (.freeze (hdr 2 [⟨2, 5⟩, ⟨3, 5⟩]) 0) State.reset).reply = [0xA5, 0x32, 4, 0, 0, 0] ∧
      (after (.nop (hdr 2 [⟨4, 5⟩])) State.reset).reply = [0xA5, 0x01, 5, 0, 0, 0] := by decide +kernel

/-- A TAKE by CONSOLE (default priority 8, ceiling 12) of points 10 to 12 at 40,000. -/
def consoleTake : TakeBody := ⟨7, ⟨0, 10, 3, 0⟩, 0, 0, 25, 0, [40000]⟩

/-- R39, R188: PRIO 15 is clamped to CONSOLE's ceiling 12; frame 1, arrival 0, slot 0 generation 0. -/
theorem test_take_reply :
    (after (.take (hdr 2 [⟨1, 15⟩]) consoleTake) State.reset).reply =
      [0xA5, 0x20, 0, 1, 0, 11, 0, 0, 0, 1, 0, 0, 0, 0, 0, 0, 12] := by decide +kernel

/-- R61: the reservation takes one block for three words, and counts one live contribution. -/
theorem test_take_reserves :
    ((after (.take (hdr 2) consoleTake) State.reset).slot 0).record.map Contribution.chain = some [0] ∧
      ((after (.take (hdr 2) consoleTake) State.reset).source 2).live = 1 := by decide +kernel

/-- A TAKE entry waiting at its turn: frame 1, with the TAKE of `consoleTake` due. -/
def takeDue : State :=
  let s := after (.take (hdr 2) consoleTake) State.reset
  { s with queue := s.queue.map fun e => { e with due := true } }

/-- R64, R72: applied with a fade-in of 0 the contribution is HELD with sequence 1, and its name finds it. -/
theorem test_take_apply :
    ((after .takeApply takeDue).slot 0).record.map (fun c => (c.phase, c.sequence)) = some (.held, some 1) ∧
      (after .takeApply takeDue).named 2 7 = some 0 := by decide +kernel

/-- R70: RELEASE with a fade of 25 of a HELD contribution is FADING_OUT with remaining 25, and anonymous. -/
theorem test_release_apply :
    let s := { after .takeApply takeDue with
      queue := [{ source := 2, origin := .command, arrival := 1, effective := 1,
                  body := .release (.name 7) none, due := true }] }
    ((after .releaseApply s).slot 0).record.map (fun c => (c.phase, c.remaining, c.name)) =
        some (.fadingOut, 25, 0) ∧ (after .releaseApply s).named 2 7 = none := by decide +kernel

/-- R67, R187: released with FADE 5 the contribution fades over 5 frames, and its stored fade-out stays 25. -/
theorem test_release_with_fade :
    let s := { after .takeApply takeDue with
      queue := [{ source := 2, origin := .command, arrival := 1, effective := 1,
                  body := .release (.name 7) (some 5), due := true }] }
    ((after .releaseApply s).slot 0).record.map (fun c => (c.remaining, c.fadeOut, c.storedFadeOut)) =
        some (5, 5, 25) := by decide +kernel

/-- R93: FLUSH takes the waiting TAKE away and frees its slot, whose generation rises. -/
theorem test_flush :
    (after (.flush (hdr 2) 2 none) (after (.take (hdr 2) consoleTake) State.reset)).slot 0 = ⟨1, none⟩ ∧
      (after (.flush (hdr 2) 2 none) (after (.take (hdr 2) consoleTake) State.reset)).reply =
        [0xA5, 0x28, 0, 0, 0, 2, 1, 1] := by decide +kernel

/-- R43: CLIENT is a source without may-force. -/
theorem test_force_not_permitted :
    (after (.forceSet (hdr 3) ⟨0, 0, 1, 0⟩ 1 65535) State.reset).reply = [0xA5, 0x30, 7, 0, 0, 0] := by decide +kernel

/-- A state with one due entry from source 1. -/
def dueEntry (b : EntryBody) : Entry :=
  { source := 1, origin := .command, arrival := 5, effective := 1, body := b, due := true }

/-- `s` with that entry alone in its queue. -/
def withDue (b : EntryBody) (s : State) : State := { s with queue := [dueEntry b] }

/-- R121, R122: a PARK of two points, and its clearing. -/
theorem test_force_apply :
    let s := after .forceSetApply (withDue (.forceSet ⟨0, 4, 2, 0⟩ .park (.fan 100 (-200))) State.reset)
    s.force 4 = some ⟨.park, 100, 1⟩ ∧ s.force 5 = some ⟨.park, 0, 1⟩ ∧ s.force 6 = none ∧
      (after .forceClearApply (withDue (.forceClear ⟨0, 4, 2, 0⟩) s)).force 4 = none := by decide +kernel

/-- R124: a THAW of a group that is not frozen is dropped NOT_FROZEN with APPLY_FAIL. -/
theorem test_thaw_drop :
    let s := after .thawApply (withDue (.thaw 0) State.reset)
    s.lastFailure.map Failure.reason = some .notFrozen ∧ (s.event 6).pending = true ∧
      (s.source 1).applyFails = 1 := by decide +kernel

/-- R128, R129: a master set to 32,768 over 2 frames stands half way between after one count: 49,151. -/
theorem test_master_fade :
    (((applyMasterSet State.reset 0 32768 2).countMaster 0).countMaster 0).master 0 =
      { state := .fading, level := 49151, start := 65535, target := 32768, length := 2, elapsed := 1,
        fresh := false } := by decide +kernel

/-- R26: a second point on an output that another holds is dropped BIND_CONFLICT. -/
theorem test_bind_conflict :
    let s := after .bindPointApply (withDue (.bindPoint 3 (.lamp 0 10 2)) State.reset)
    s.occupant 11 = some 3 ∧
      (after .bindPointApply (withDue (.bindPoint 4 (.lamp 0 11 1)) s)).lastFailure.map Failure.reason =
        some .bindConflict := by decide +kernel

/-- R22: a 16-bit lamp takes the high and the low byte of 40,000, an 8-bit one the level product with 255. -/
theorem test_lamp_values :
    let r : Result := { merged := 40000, output := 40000, winner := none, frozen := false, held := 0 }
    let s := { State.reset with results := State.reset.results.set Result.por 3 r }
    let wide := after .bindPointApply (withDue (.bindPoint 3 (.lamp 0 10 2)) s)
    let narrow := after .bindPointApply (withDue (.bindPoint 3 (.lamp 0 10 1)) s)
    wide.lampValue 0 10 = 156 ∧ wide.lampValue 0 11 = 64 ∧ narrow.lampValue 0 10 = 156 := by decide +kernel

/-- R3: in FREE_RUN the local timer issues frame 1, untimed, one period after frame 0. -/
theorem test_local_timer :
    let s := after .localTimerExpiry State.reset
    s.timer.counter = 1 ∧ s.timer.timedFromRef = false ∧ s.timer.lastFrameStart = 1080000 := by decide +kernel

/-- R4 to R6: eight good intervals after a first pulse align the timer. -/
theorem test_alignment :
    let s := after (.refPulse 1080000)
      (State.reset.setTimer { State.reset.timer with refEnable := true, state := .acquiring, lastPulse := some 0,
                                                     acquireCount := 7 })
    s.timer.state = .locked ∧ (s.event 0).pending = true ∧ s.timer.heldPeriod = 1080000 := by decide +kernel

/-- R8: a pulse earlier than N − N/8 after the last frame start is a glitch. -/
theorem test_glitch :
    let s := State.reset.setTimer { State.reset.timer with refEnable := true, state := .locked, lastPulse := some 0 }
    ((after (.refPulse 944999) s).event 2).pending = true ∧ ((after (.refPulse 945000) s).event 2).pending = false := by
  decide +kernel

/-- R46, R49: a source whose outstanding tick is taken is LOST; a frame of it brings it back with SOURCE_BACK. -/
theorem test_source_lost :
    let s := State.reset.setSource 2 { State.reset.source 2 with reload := 9, counter := 1 }
    let lost := after (.sourceLost 2) { s with work := { s.work with lossDue := [2] } }
    (lost.source 2).state = .lost ∧ ((after (.touch (hdr 2)) lost).source 2).counter = 9 ∧
      ((after (.touch (hdr 2)) lost).event 5).pending = true := by decide +kernel

/-- R142: an input that loses its signal counts the loss at the next sample and shows black. -/
theorem test_input_loss :
    ({ enabled := true, pin := false, sample := true, shown := true, losses := 254 } : Input).sampled =
      { enabled := true, pin := false, sample := false, shown := false, losses := 255 } := by decide

/-- R149: the last image of a HOLD_LAST plate ends it with PLATE_END. -/
theorem test_plate_end :
    let s := (State.reset.setDescriptor 0 ⟨0, 1, true, true⟩).setPlate 7
      { state := .playing, loadOpen := false, width := 1, height := 1, hold := 1, endMode := .holdLast, clip := [0],
        image := 0, held := 0, late := 0, wasPlaying := true, cleared := false }
    let t := after (.plateHoldExpiry 7) { s with work := { s.work with platesDue := [7] } }
    (t.plate 7).state = .ended ∧ (t.event 9).pending = true := by decide +kernel

/-- R149: a plate stopped and played again in one application was PLAYING before it and is counted. -/
theorem test_plate_played_again :
    let s := (State.reset.setPlate 7 { Plate.por 7 with state := .playing, hold := 2, wasPlaying := true })
    let t := applyPlatePlay (applyPlateStop s (dueEntry (.plateStop 7)) 7) (dueEntry (.platePlay 7)) 7
    ((t.countPlate 7).plate 7).held = 1 := by decide +kernel

/-- 9.6's example, row n + 18: e reaches 10, the from source is dropped and e is 0. -/
theorem test_dissolve_end :
    let s := State.reset.setTile 12
      { Tile.por 12 with fields := { (Tile.por 12).fields with dissolve := 10 }, current := 6, fromSource := some 2,
                         elapsed := 9 }
    let t := after (.dissolveEnd 12) { s with work := { s.work with dissolvesDue := [12] } }
    (t.tile 12).fromSource = none ∧ (t.tile 12).elapsed = 0 ∧ (t.tile 12).current = 6 := by decide +kernel

/-- R139: a line frame that ends with a set waiting begins it. -/
theorem test_line_frame_end :
    let s := State.reset.setLine 7
      { enabled := true, count := 1, rate := 2, sequence := 5, inFlight := some ⟨4, 384, 1, .empty⟩,
        waiting := some ⟨5, .empty⟩, slips := 1, drops := 0 }
    ((after (.lineFrameEnd 7) s).line 7).inFlight = some ⟨5, 1, 2, .empty⟩ := by decide +kernel

/-- R135, R136: the first character of a line frame carries the line number and the frame-mark. -/
theorem test_line_wire :
    (LineFrame.wire 5 ⟨1, 1, 0, .empty⟩).take 11 =
      [false, true, false, true, false, false, false, false, false, true, true] := by decide +kernel

/-- R135: a line is high while no frame is in flight; a frame of one slot lasts 55 bit times, low at its first. -/
theorem test_lamp_idle_level :
    State.reset.lampLevel 7 0 = true ∧
      (let x : Line := { Line.por 5 with inFlight := some ⟨1, 1, 0, .empty⟩ };
        x.level 5 0 = false ∧ x.level 5 44 = false ∧ x.level 5 54 = true ∧ x.level 5 55 = true) := by decide +kernel

/-- 11.8: the header of a broadcast BLACK packet of link 1, sequence 7, frame 258, timed: its sum is the last word. -/
theorem test_packet_header :
    LinkFrame.header ⟨7, 258, true, .black, false⟩ 1 0 = [2, 1, 255, 255, 7, 0, 0, 1, 2, 1, 0, 0, 0, 0, 2, 12] := by
  decide +kernel

/-- R148: PLATE_PLAY of an UNDEFINED plate is dropped PLATE_UNDEFINED. -/
theorem test_plate_undefined :
    (after .platePlayApply (withDue (.platePlay 0) State.reset)).lastFailure.map Failure.reason =
      some .plateUndefined := by decide +kernel

/-- R189, R193: with RESET# low the part is BUSY and takes no frame; at the rise the work light is 32,768 again. -/
theorem test_reset :
    let s := after .resetFall { State.reset with workLight := 1 }
    s.busy = true ∧ (after (.nop (hdr 0)) s).reply = [] ∧ (after .resetRise s).workLight = 32768 ∧
      (afterAll [.resetRise, .initialisationEnd 500] s).busy = false := by decide +kernel

/-- R177: GO on a STOPPED list is NOT_RUNNING. -/
theorem test_go_not_running :
    (after (.go (hdr 0) 0) State.reset).reply = [0xA5, 0x57, 0x0F, 0, 0, 0] := by decide +kernel

/-- Cue 5 of list A, which freezes group 0 on GO, loaded, linked and started. -/
def showLoaded : State :=
  afterAll [.loadCue (hdr 1) ⟨5, 0, 0, some .go, [.freeze 0]⟩, .linkCue (hdr 1) 0 5 .tail, .startList (hdr 1) 0,
    .go (hdr 1) 0] State.reset

/-- R178, R179: at the next frame start the cue fires, its FREEZE joins the queue for the next, and the list ends. -/
theorem test_cue_fire :
    let s := after .cueFire { showLoaded with work := { showLoaded.work with evaluation := some ⟨0, 0⟩ } }
    s.queue.map Entry.body = [.freeze 0] ∧ (s.cue 5).state = .fired ∧ (s.list 0).state = .ended ∧
      (s.event 8).pending = true := by decide +kernel

/-- `showLoaded` at its frame start, none of the evaluation taken yet, with cue 6 on FOLLOW 0 alone in list B. -/
def bothLists : State :=
  let s := afterAll [.loadCue (hdr 1) ⟨6, 1, 0, some (.follow 0), [.releaseSource]⟩, .linkCue (hdr 1) 1 6 .tail] showLoaded
  s.setWork { s.work with evaluation := some ⟨0, 0⟩ }

/-- R183: START_LIST B taken after frame start n is taken after its evaluation. List A's cue has fired at n, list B's has
not; c is n, and with nothing more the FOLLOW 0 first cue fires at n + 1. -/
theorem test_start_list_after_frame_start :
    let s := after (.startList (hdr 1) 1) bothLists
    (s.cue 5).state = .fired ∧ (s.cue 6).state = .armed ∧ (s.list 1).lastFire = 2 ∧ s.work.evaluation = none ∧
      ((after .cueFire s).cue 6).state = .armed ∧
      ((afterAll [.localTimerExpiry, .cueFire] s).cue 6).state = .fired := by decide +kernel

/-- R183: GO taken before the frame start fires the head at it; taken after it, at the next one. -/
theorem test_go_either_side_of_a_frame_start :
    let s := showLoaded.setList 0 { showLoaded.list 0 with goPending := false }
    ((afterAll [.go (hdr 1) 0, .localTimerExpiry, .cueFire] s).cue 5).state = .fired ∧
      ((afterAll [.localTimerExpiry, .go (hdr 1) 0, .cueFire] s).cue 5).state = .armed ∧
      ((afterAll [.localTimerExpiry, .go (hdr 1) 0, .localTimerExpiry, .cueFire] s).cue 5).state = .fired := by
  decide +kernel

/-- R184: with the head due at the last frame start and no CUE_FIRE row, READ_CUE shows the cue FIRED, state 3, and
READ_LIST the list ENDED, state 2. -/
theorem test_reads_after_the_evaluation :
    (after (.readCue (hdr 4) 5 none) bothLists).reply[6]? = some 3 ∧
      (after (.readList (hdr 4) 0) bothLists).reply[6]? = some 2 ∧
      (after (.readList (hdr 4) 0) bothLists).work.evaluation = none := by decide +kernel

/-! ### Hypotheses of the statements, met together

Each theorem below is named for the statement of Obligations.lean whose hypotheses it meets; a statement of several
clauses has one part a clause, at a boundary of that clause's range. -/

/-- Waiting commands, one and none. -/
theorem test_meets_StepRunsTheFrontCommand :
    ({ State.reset with pending := [.nop (hdr 2), .readError] } : State).pending = .nop (hdr 2) :: [.readError] ∧
      State.reset.pending = [] := ⟨rfl, rfl⟩

/-- 64 entries, every count at 255, every mask bit set, and a command in front. -/
def fullState : State :=
  { State.reset with
    pending := [.nop (hdr 2)]
    queue := List.replicate 64 (dueEntry (.setWorklightLevel 1))
    events := ⟨(List.range 13).map fun k => (k, ⟨true, 255⟩)⟩ }

theorem test_meets_EveryStepKeepsTheBounds : Bounded fullState ∧ ∃ t, step fullState = .next t :=
  ⟨by decide +kernel, _, rfl⟩

/-- A state with a record in several stores, and a command in front. -/
def smallState : State :=
  { (((takeDue.setPoint 2559 { Point.por 0 with retake := true }).setMaster 3 ⟨.fading, 1, 0, 9, 5, 1, false⟩).setForce 0
      (some ⟨.cap, 1, 0⟩)).raise .plateEnd with pending := [.takeApply] }

theorem test_canonical_small : Canonical smallState := by constructor <;> decide +kernel

theorem test_meets_EveryStepKeepsTheStoresCanonical : Canonical smallState ∧ ∃ t, step smallState = .next t :=
  ⟨test_canonical_small, _, rfl⟩

/-- NOP with 219 modifier entries: a frame of exactly 1,100 bytes. -/
def longNop : Instr := .nop (hdr 2 (List.replicate 219 ⟨1, 7⟩))

theorem test_meets_FramesAndRowsRoundTrip :
    longNop.header? = some (hdr 2 (List.replicate 219 ⟨1, 7⟩)) ∧ longNop.wf = true ∧
      frameLength (hdr 2 (List.replicate 219 ⟨1, 7⟩)) longNop = 1100 := ⟨rfl, by decide +kernel, by decide +kernel⟩

theorem test_meets_ClockedBytesAndRowsAgree :
    longNop.header? = some (hdr 2 (List.replicate 219 ⟨1, 7⟩)) ∧ longNop.wf = true ∧
      frameLength (hdr 2 (List.replicate 219 ⟨1, 7⟩)) longNop ≤ 1100 ∧ ∃ bs, encodeFrame longNop = some bs :=
  ⟨rfl, by decide +kernel, by decide +kernel, _, rfl⟩

/-- Source 4 supervised, with a reload of 2 and its tick outstanding. -/
def ticking : State :=
  (State.reset.setSource 4 { Source.por 4 with reload := 2, counter := 2 }).setWork { Work.none with lossDue := [4] }

theorem test_meets_TheReloadLeavesTheRestOfThePart :
    (4 : Nat) ≠ (hdr 3).src ∧ State.reset.work.lossDue.length ≤ ticking.work.lossDue.length ∧
      (State.reset.queue.filter Entry.due).length ≤ (ticking.queue.filter Entry.due).length ∧
      (∀ n ∈ ticking.work.lossDue, (ticking.source n).counter = (ticking.source n).counter) ∧
      (ticking.noneDue = true ∧ ticking.work.lossDue = [4] ∧ (ticking.source 4).counter ≠ 1) ∧
      (let s := ticking.setSource 4 { Source.por 4 with reload := 2, counter := 1 };
        s.noneDue = true ∧ s.work.lossDue = [4] ∧ (s.source 4).counter = 1) ∧
      (4 ∈ ticking.work.lossDue ∧ (ticking.source 4).counter ≠ (State.reset.source 4).counter ∧
        (ticking.source 4).counter ≠ 1) := by decide +kernel

/-- A render pass in progress. -/
def rendering : State := smallState.setWork { Work.none with phase := .rendering }

theorem test_meets_TheFramesOwnWorkLeavesTheRest :
    (rendering.work.phase = .rendering ∧ State.reset.work.phase = .idle) ∧
      (let s := State.reset.setWork { Work.none with phase := .applying };
        s.work.phase = .applying ∧ s.noneDue = true ∧ s.work.lossDue = [] ∧ s.advance.work.phase = .rendering) ∧
      (let s := (State.reset.setLink 3 { Link.por 3 with state := .waking, wakeDelay := 1 }).setWork
          { Work.none with phase := .applying };
        s.work.phase = .applying ∧ s.noneDue = true ∧ s.work.lossDue = [] ∧ s.advance.work.phase = .counting ∧
          s.advance.work.counted = false ∧ s.advance.work.wakesDue = [3]) ∧
      (let s := State.reset.setWork { Work.none with phase := .counting }; s.work.counted = true) ∧
      (let s := (withDue (.freeze 0) State.reset).setWork { Work.none with phase := .applying }; s.noneDue = false) ∧
      (State.reset.setWork { Work.none with phase := .applying, lossDue := [4] }).work.lossDue ≠ [] := by
  repeat' apply And.intro
  all_goals decide +kernel

/-- RESET# low, and initialising. -/
def low : State := { State.reset with device := .resetLow }
def initialising : State := { State.reset with device := .initialising }

/-- A LOAD_CURVE one knot short. -/
def shortCurve : Instr := .loadCurve (hdr 1) 7 (List.replicate 16 0)

theorem test_meets_FramesThatFailACheckAreAnswered :
    low.device = .resetLow ∧
      (initialising.device ≠ .resetLow ∧ initialising.busy = true ∧
        frameLength (hdr 2 (List.replicate 219 ⟨1, 7⟩)) longNop ≤ 1100 ∧ (hdr 4).src ≤ 4) ∧
      (initialising.busy = true ∧ 4 < (hdr 5).src) ∧
      (State.reset.device = .running ∧ State.reset.softClear = .none ∧
        1100 < frameLength (hdr 2 (List.replicate 220 ⟨1, 7⟩)) (.nop (hdr 2 (List.replicate 220 ⟨1, 7⟩)))) ∧
      (frameLength (hdr 5) (.nop (hdr 5)) ≤ 1100 ∧ 4 < (hdr 5).src) ∧
      (Received State.reset (hdr 4 [⟨1, 7⟩]) (.nop (hdr 4 [⟨1, 7⟩])) ∧
        modifierStatus (.nop (hdr 4 [⟨1, 7⟩])) (hdr 4 [⟨1, 7⟩]) 0x01 = some .modifierInvalid) ∧
      (Received State.reset (hdr 1) shortCurve ∧ modifierStatus shortCurve (hdr 1) 0x12 = none ∧
        shortCurve.bodyLengthMatches = false) := by decide +kernel

/-- The fifteen configuration commands of one header, at the upper ends of their ranges. -/
def configurations (h : Header) : List Instr :=
  [.setTiming h 6 1 65535, .setFrame h 0xFFFFFFFF, .setPoint h ⟨2559, 0, 65535, 7, 3, 4095, 1⟩,
    .bindPoint h 2559 (.lamp 7 383 1), .loadCurve h 7 (List.replicate 17 65535), .defineGroup h ⟨127, 0, 40, 64⟩,
    .setSource h ⟨4, 15, 15, 192, 1, 65535, 255⟩, .setSupervision h 255, .setWorklightLevel h 65535,
    .setLine h 7 1 384 2, .setInput h 3 1, .loadPlate h ⟨7, 0, 1, some ⟨3840, 2160, 255, 2⟩, [⟨0, 2160, 1, 0⟩]⟩,
    .setTile h ⟨63, 1, 3, 15, 3712, 2032, 255⟩, .setLink h 3 63 65535, .setList h 1 4 255]

theorem test_meets_ConfigurationIsRefusedFromTheDesks :
    2 ≤ (hdr 4).src ∧ ∀ i ∈ configurations (hdr 4), Admitted State.reset (hdr 4) i := by decide +kernel

theorem test_meets_NopReadEventsAndSoftClearComplete :
    Admitted State.reset (hdr 4) (.nop (hdr 4)) ∧ Admitted State.reset (hdr 4) (.readEvents (hdr 4)) ∧
      (Admitted State.reset (hdr 0) (.softClear (hdr 0)) ∧ (hdr 0).src = 0) ∧
      (Admitted State.reset (hdr 1) (.softClear (hdr 1)) ∧ (hdr 1).src ≠ 0) := by decide +kernel

theorem test_canonical_rendering : Canonical rendering := by constructor <;> decide +kernel

theorem test_meets_SetEventMaskStoresTheMask :
    (Received State.reset (hdr 4 [⟨2, 7⟩]) (.setEventMask (hdr 4 [⟨2, 7⟩]) 1) ∧ (hdr 4 [⟨2, 7⟩]).mods ≠ []) ∧
      (Received State.reset (hdr 2) (.setEventMask (hdr 2) 1) ∧ (hdr 2).mods = [] ∧ 2 ≤ (hdr 2).src) ∧
      (Received State.reset (hdr 1) (.setEventMask (hdr 1) 8192) ∧ (hdr 1).src ≤ 1 ∧ (8192 : Half).getLsbD 13 = true) ∧
      (Received State.reset (hdr 1) (.setEventMask (hdr 1) 8191) ∧
        ((8191 : Half).getLsbD 13 || (8191 : Half).getLsbD 14 || (8191 : Half).getLsbD 15) = false) := by decide +kernel

theorem test_meets_AttentionFollowsFlagsAndMask :
    smallState.device ≠ .resetLow ∧ low.device = .resetLow ∧ (fullState.event 12).count ≤ 255 ∧
      (12 : Nat) ≠ EventKind.number .fetchLate ∧ State.reset.mask.getLsbD (EventKind.number .outputSlip) = true := by
  decide +kernel

/-- Source 4 LOST. -/
def lostClient : State := State.reset.setSource 4 { Source.por 4 with state := .lost, reload := 255 }

theorem test_meets_TouchReloadsItsSource :
    (Received lostClient (hdr 4 [⟨2, 7⟩]) (.touch (hdr 4 [⟨2, 7⟩])) ∧ (hdr 4 [⟨2, 7⟩]).mods ≠ []) ∧
      Received lostClient (hdr 4) (.touch (hdr 4)) ∧ (hdr 4).mods = [] ∧ (lostClient.source 4).state = .lost := by decide +kernel

/-- The timer LOCKED to the reference. -/
def lockedTimer : Timer :=
  { State.reset.timer with state := .locked, refEnable := true, lastPulse := some 0, lastInterval := some 1080000 }
def locked : State := State.reset.setTimer lockedTimer

theorem test_meets_StudioTimeCommandsComplete :
    (Admitted State.reset (hdr 1) (.setFrame (hdr 1) 0xFFFFFFFF) ∧ (hdr 1).src ≤ 1) ∧
      Admitted State.reset (hdr 4) (.readTiming (hdr 4)) ∧
      (Admitted locked (hdr 1) (.setTiming (hdr 1) 1 1 65535) ∧ onOff 1 = some true ∧ (1 : Byte).toNat = locked.timer.rate ∧
        locked.timer.expiryDue = false ∧ locked.timer.refEnable = true) ∧
      (Admitted locked (hdr 0) (.setTiming (hdr 0) 6 1 0) ∧ (6 : Byte).toNat ≠ locked.timer.rate ∧
        max locked.now 100 ≤ locked.timer.lastFrameStart + nominalPeriod 6) ∧
      (Admitted locked (hdr 0) (.setTiming (hdr 0) 1 0 0) ∧ onOff 0 = some false ∧ locked.timer.refEnable = true) ∧
      (let h : Header := ⟨nominalPeriod 1, 0, []⟩;
        Admitted locked h (.setTiming h 1 0 0) ∧ max locked.now h.time ≤ locked.timer.lastFrameStart + nominalPeriod 1) ∧
      (let h : Header := ⟨nominalPeriod 1 + 1, 0, []⟩;
        Admitted locked h (.setTiming h 1 0 0) ∧
          locked.timer.lastFrameStart + nominalPeriod 1 < max locked.now h.time) := by decide +kernel

/-- Group 127 defined over 40 rows of 64 and frozen. -/
def frozenGroup : State := (State.reset.setGroup 127 ⟨0, 40, 64⟩).setFreezeCount 127 255

theorem test_meets_GroupAndPointReadsComplete :
    Admitted State.reset (hdr 1) (.defineGroup (hdr 1) ⟨0, 0, 1, 1⟩) ∧
      (Admitted State.reset (hdr 1) (.defineGroup (hdr 1) ⟨127, 0, 2560, 1⟩) ∧ 0 + 2560 * 1 ≤ 2560 ∧
        State.reset.groupInUse 127 = false) ∧
      (Admitted frozenGroup (hdr 0) (.defineGroup (hdr 0) ⟨127, 0, 40, 64⟩) ∧ 0 + 40 * 64 ≤ 2560 ∧
        frozenGroup.groupInUse 127 = true) ∧
      Admitted State.reset (hdr 1) (.defineGroup (hdr 1) ⟨1, 9, 0, 9⟩) ∧
      Admitted frozenGroup (hdr 1) (.defineGroup (hdr 1) ⟨127, 9, 0, 9⟩) ∧
      Admitted State.reset (hdr 4) (.readPoint (hdr 4) 2559) ∧ Admitted State.reset (hdr 4) (.readPoint (hdr 4) 2560) ∧
      Admitted State.reset (hdr 4) (.readGroup (hdr 4) 127) ∧ Admitted State.reset (hdr 4) (.readGroup (hdr 4) 128) ∧
      Admitted State.reset (hdr 4) (.readCurve (hdr 4) 7) ∧ Admitted State.reset (hdr 4) (.readCurve (hdr 4) 8) := by
  repeat' apply And.intro
  all_goals decide +kernel

theorem test_meets_SourceCommandsComplete :
    (Admitted takeDue (hdr 1) (.setSource (hdr 1) ⟨2, 12, 12, 1, 0, 0, 1⟩) ∧ onOff 0 = some false ∧
        (takeDue.source 2).live ≤ 1 ∧
        (takeDue.slotsWhere fun c => c.owner == 2 && decide (12 < c.priority)) = []) ∧
      (Admitted State.reset (hdr 0) (.setSource (hdr 0) ⟨0, 15, 15, 192, 1, 65535, 0⟩) ∧ onOff 1 = some true ∧
        (State.reset.source 0).live ≤ 192 ∧
        (State.reset.slotsWhere fun c => c.owner == 0 && decide (15 < c.priority)) = []) ∧
      (∀ b ∈ ([⟨0, 14, 14, 192, 1, 0, 0⟩, ⟨0, 15, 15, 192, 0, 0, 0⟩, ⟨0, 15, 15, 192, 1, 0, 1⟩] : List SetSourceBody),
        Admitted State.reset (hdr 0) (.setSource (hdr 0) b)) ∧
      (Admitted State.reset (hdr 1) (.setSource (hdr 1) ⟨0, 15, 15, 192, 1, 0, 0⟩) ∧ (hdr 1).src ≠ 0) ∧
      (Admitted State.reset (hdr 1) (.setSupervision (hdr 1) 255) ∧ (255 : Byte) ≠ 0) ∧
      Admitted State.reset (hdr 3) (.readSource (hdr 3) 4 0) ∧
      (Admitted State.reset (hdr 4) (.readSource (hdr 4) 4 1) ∧ (hdr 4).src = (4 : Byte).toNat) ∧
      (Admitted State.reset (hdr 0) (.readSource (hdr 0) 4 1) ∧ (hdr 0).src = 0) ∧
      (Admitted State.reset (hdr 3) (.readSource (hdr 3) 4 1) ∧ (hdr 3).src ≠ 0 ∧ (hdr 3).src ≠ (4 : Byte).toNat) ∧
      (Admitted ticking (hdr 4) (.readSource (hdr 4) 4 0) ∧ (hdr 4).src = (4 : Byte).toNat ∧
        (hdr 4).src ∈ ticking.work.lossDue) := by
  repeat' apply And.intro
  all_goals decide +kernel

/-- R52: READ_SOURCE shows the loss of a source whose tick at the last frame start no row has taken. -/
theorem test_read_source_after_the_tick :
    let s := (State.reset.setSource 4 { Source.por 4 with reload := 1, counter := 1 }).setWork
      { Work.none with phase := .applying, lossDue := [4] }
    (after (.readSource (hdr 3) 4 0) s).source 4 = { Source.por 4 with reload := 1, counter := 0, state := .lost } ∧
      (after (.readSource (hdr 3) 4 0) s).work.lossDue = [] := by decide +kernel

/-- A LIST TAKE of the last two points under name 4095, with a fade modifier and a priority above the ceiling. -/
def listTake : TakeBody := ⟨4095, ⟨0, 2558, 2, 0⟩, 1, 65535, 65535, 1, [65535, 0]⟩
def listHeader : Header := hdr 4 [⟨1, 15⟩, ⟨3, 65535⟩, ⟨4, 65535⟩]

theorem test_meets_TakeCompletes :
    Admitted State.reset listHeader (.take listHeader listTake) ∧ policyOf 1 = some .release ∧
      priorityOf (State.reset.source 4) (listHeader.mod? 1) = some (8, true) ∧ listHeader.fade? = some (some 65535) ∧
      Schedulable State.reset listHeader 65536 false ∧ State.reset.selectorValid (selectorOf listTake.selector) = true ∧
      (4095 : Half).toNat ≤ 4095 ∧ (1 : Byte).toNat ≤ 1 ∧
      State.reset.sourceOutOfRange (selectorOf listTake.selector) (takeTarget listHeader listTake) = false ∧
      (State.reset.source 4).live ≠ (State.reset.source 4).quota ∧ State.reset.freeSlot = some 0 ∧
      blocksNeeded (takeForm listHeader listTake) 2 ≤ State.reset.poolFree.length := by decide +kernel

/-- A contribution that holds a slot. -/
def record (phase : Phase) (name : Nat) (chain : List Nat) : Contribution :=
  { phase, owner := 2, name, priority := 8, sequence := some 1, selector := ⟨0, 0, 16, 0⟩, form := .spec (.level 9),
    fadeIn := 2, fadeOut := 25, storedFadeOut := 25, elapsed := 0, remaining := 25, paused := false, policy := .release, origin := .command,
    effective := 1, chain, fresh := true }

/-- Every slot taken. -/
def noSlot : State :=
  { State.reset with slots := ⟨(List.range 192).map fun k => (k, ⟨0, some (record .held 0 [])⟩)⟩ }

/-- 63 entries: room for exactly one more. -/
def almostFull : State := { State.reset with queue := List.replicate 63 (dueEntry (.setWorklightLevel 1)) }

/-- The checks on the fields of `consoleTake`, which the four refusals share. -/
abbrev ConsoleTakeFields (s : State) : Prop :=
  Admitted s (hdr 2) (.take (hdr 2) consoleTake) ∧ policyOf consoleTake.policy = some .hold ∧
    priorityOf (s.source 2) ((hdr 2).mod? 1) = some (8, false) ∧ (hdr 2).fade? = some none ∧
    effectiveFrame s.timer.counter (hdr 2) = some (1, false) ∧
    s.selectorValid (selectorOf consoleTake.selector) = true ∧
    s.sourceOutOfRange (selectorOf consoleTake.selector) (takeTarget (hdr 2) consoleTake) = false

theorem test_meets_CommandsAreRefusedForWantOfRoom :
    (ConsoleTakeFields fullState ∧ 64 ≤ fullState.queue.length) ∧
      (let s := almostFull.setSource 2 { Source.por 2 with live := 64 };
        ConsoleTakeFields s ∧ s.queue.length < 64 ∧ (s.source 2).live = (s.source 2).quota) ∧
      (ConsoleTakeFields noSlot ∧ noSlot.queue.length < 64 ∧ (noSlot.source 2).live ≠ (noSlot.source 2).quota ∧
        noSlot.freeSlot = none) ∧
      (let s := { State.reset with poolFree := [] };
        ConsoleTakeFields s ∧ s.freeSlot ≠ none ∧
          s.poolFree.length < blocksNeeded (takeForm (hdr 2) consoleTake) 3) ∧
      effectiveFrame fullState.timer.counter (hdr 1) = some (1, false) ∧
      Admitted fullState (hdr 1) (.setWorklightLevel (hdr 1) 65535) ∧
      (Admitted fullState (hdr 1) (.freeze (hdr 1) 0) ∧ (fullState.group 0).count ≠ 0) ∧
      (let s := fullState.setGroup 127 ⟨0, 1, 1⟩;
        Admitted s (hdr 1) (.freeze (hdr 1) 127) ∧ (s.group 127).count ≠ 0 ∧ 64 ≤ s.queue.length) ∧
      Admitted fullState (hdr 1) (.platePlay (hdr 1) 7) := by
  repeat' apply And.intro
  all_goals decide +kernel

/-- Two free blocks that differ. -/
def twoBlocks : State := { State.reset with poolFree := [1023, 0] }

theorem test_meets_AReservationTakesItsParts :
    let c := { record .pending 7 [] with form := .list };
    twoBlocks.poolFree.Nodup ∧ blocksNeeded c.form c.selector.count ≤ twoBlocks.poolFree.length ∧ c.form = .list ∧
      (List.replicate 16 5).length = c.selector.count ∧ (15 : Nat) < (List.replicate 16 5).length ∧
      (1 : Nat) ≠ 0 ∧ (0 : Nat) ≠ c.owner := by decide +kernel

/-- Slot 191 holds a record; its name finds it. -/
def heldAt191 (c : Contribution) : State := (State.reset.setSlot 191 ⟨255, some c⟩).setNamed 2 4095 (some 191)

/-- A state with a plate in FAULT and an UNDEFINED plate, a load open on each, and a cue in a list. -/
def worn : State :=
  ((rendering.setPlate 0 { Plate.por 0 with state := .fault, loadOpen := true, clip := [0] }).setPlate 7
    { Plate.por 7 with loadOpen := true, clip := [1023] }).setCue 511 { Cue.por 511 with state := .fired }

theorem test_canonical_worn : Canonical worn := by constructor <;> decide +kernel

/-- R194, R144: SOFT_CLEAR closes both loads; the plate in FAULT becomes STOPPED and keeps its clip, and the UNDEFINED
plate's descriptor joins the back of the free list. -/
theorem test_soft_clear_closes_loads :
    let t := worn.beginSoftClear
    (t.plate 0).state = .stopped ∧ (t.plate 0).loadOpen = false ∧ (t.plate 0).clip = [0] ∧
      (t.plate 7).state = .undefined ∧ (t.plate 7).loadOpen = false ∧ (t.plate 7).clip = [] ∧
      t.descriptorFree = worn.descriptorFree ++ [1023] := by decide +kernel

theorem test_meets_RecordsAreFreedAndCleared :
    ((Canonical worn ∧ worn.work.phase = .rendering ∧ (worn.plate 0).state ≠ .undefined ∧
        (worn.plate 7).state = .undefined ∧ (worn.plate 7).loadOpen = true ∧ (1023 : Nat) ∈ (worn.plate 7).clip) ∧
      Canonical smallState ∧ smallState.work.phase ≠ .rendering ∧ smallState.work.phase = .idle) ∧
      (((heldAt191 (record .held 4095 [0])).slot 191).record = some (record .held 4095 [0]) ∧
        (record .held 4095 [0]).name ≠ 0 ∧ (record .held 4095 [0]).phase = .held ∧
        (record .held 4095 [0]).name < 4096 ∧ (3, 4095) ≠ ((record .held 4095 [0]).owner, (record .held 4095 [0]).name)) ∧
      (((heldAt191 (record .fadingOut 0 [0])).slot 191).record = some (record .fadingOut 0 [0]) ∧
        (record .fadingOut 0 [0]).name = 0) ∧
      (record .pending 7 [0]).phase = .pending ∧ (190 : Nat) ≠ 191 ∧ (1 : Nat) ≠ (record .held 4095 [0]).owner :=
  ⟨⟨⟨test_canonical_worn, by decide +kernel⟩, test_canonical_small, by decide +kernel⟩, by decide +kernel⟩

theorem test_meets_ReleasingStartsTheFadeOut :
    ((heldAt191 (record .held 4095 [0])).slot 191).record = some (record .held 4095 [0]) ∧
      (record .held 4095 [0]).chain.Nodup ∧
      (record .held 4095 [0]).selector.count ≤ 16 * (record .held 4095 [0]).chain.length ∧
      (record .held 4095 [0]).name ≠ 0 := by decide +kernel

/-- R67: the elapsed value a fading-in contribution had at its release is not kept. -/
theorem test_release_drops_elapsed :
    ((((heldAt191 { record .fadingIn 4095 [0] with elapsed := 1, fresh := false }).release 191 5).slot 191).record.map
      fun c => (c.phase, c.elapsed, c.remaining)) = some (.fadingOut, 0, 5) := by decide +kernel

/-- 63 entries wait, so one more has room; the next frame is 1. -/
theorem test_schedulable : Schedulable almostFull (hdr 4) 1 false := by decide +kernel

theorem test_meets_ContributionArrivalsComplete :
    Schedulable almostFull (hdr 4 [⟨4, 65535⟩]) 1 false ∧
      (Admitted almostFull (hdr 4 [⟨4, 65535⟩]) (.release (hdr 4 [⟨4, 65535⟩]) (.handle 191 255)) ∧
        addressOf (.handle 191 255) = some (.handle ⟨191, 255⟩) ∧ (hdr 4 [⟨4, 65535⟩]).fade? = some (some 65535)) ∧
      (Admitted almostFull (hdr 4) (.release (hdr 4) (.name 4095)) ∧ addressOf (.name 4095) = some (.name 4095)) ∧
      (Admitted almostFull (hdr 4) (.releaseSource (hdr 4) 4) ∧ (hdr 4).src = (4 : Byte).toNat) ∧
      (Admitted almostFull (hdr 0) (.releaseSource (hdr 0) 4) ∧ Schedulable almostFull (hdr 0) 1 false) ∧
      (Admitted almostFull (hdr 4) (.releaseSource (hdr 4) 3) ∧ (hdr 4).src ≠ 0 ∧ (hdr 4).src ≠ (3 : Byte).toNat) ∧
      Admitted almostFull (hdr 4) (.pause (hdr 4) (.name 1)) ∧ Admitted almostFull (hdr 4) (.resume (hdr 4) (.name 1)) ∧
      addressOf (.name 1) = some (.name 1) := by decide +kernel

theorem test_meets_ConfigurationArrivalsComplete :
    ((hdr 1).src ≤ 1 ∧ Schedulable almostFull (hdr 1) 1 false) ∧
      (Admitted almostFull (hdr 1) (.setPoint (hdr 1) ⟨2559, 0, 65535, 7, 3, 4096, 1⟩) ∧
        pointFieldsOf ⟨2559, 0, 65535, 7, 3, 4096, 1⟩ =
          some { kind := .intensity, home := 65535, curve := 7, master := some 3, offset := 4095, member := true }) ∧
      (Admitted almostFull (hdr 1) (.bindPoint (hdr 1) 2559 (.lamp 7 382 2)) ∧
        bindingOf (.lamp 7 382 2) = some (.lamp 7 382 2) ∧ bindingOf (.tile 63 4) = some (.tile 63 .source)) ∧
      Admitted almostFull (hdr 1) (.loadCurve (hdr 1) 7 (List.replicate 17 65535)) ∧
      Admitted almostFull (hdr 1) (.loadCurve (hdr 1) 0 (List.replicate 17 0)) ∧
      Admitted almostFull (hdr 1) (.setWorklightLevel (hdr 1) 65535) ∧
      (Admitted almostFull (hdr 1) (.setTile (hdr 1) ⟨63, 1, 3, 15, 3712, 2032, 255⟩) ∧
        tileFieldsOf ⟨63, 1, 3, 15, 3712, 2032, 255⟩ = some ⟨true, 3, 15, 3712, 2032, 255⟩) := by decide +kernel

/-- Point 9 is of kind SOURCE, with a PARK of 12. -/
def sourcePoint : State :=
  (almostFull.setPoint 9 { Point.por 9 with fields := { kind := .source, home := 12, curve := 0, master := none, offset := 0,
                                                        member := false } }).setForce 9 (some ⟨.park, 12, 1⟩)

theorem test_meets_OverrideAndPlateArrivalsComplete :
    ((sourcePoint.source 2).mayForce = true ∧ Schedulable sourcePoint (hdr 2) 1 false) ∧
      (Admitted sourcePoint (hdr 2) (.forceSet (hdr 2) ⟨0, 9, 1, 0⟩ 1 12) ∧ forceModeOf 1 = some .park ∧
        sourcePoint.selectorValid (selectorOf ⟨0, 9, 1, 0⟩) = true ∧
        sourcePoint.forceUnsuits (selectorOf ⟨0, 9, 1, 0⟩) .park (forceValueOf (hdr 2) 12) = false) ∧
      (Admitted sourcePoint (hdr 2) (.forceClear (hdr 2) ⟨0, 2048, 512, 0⟩) ∧
        sourcePoint.selectorValid (selectorOf ⟨0, 2048, 512, 0⟩) = true) ∧
      (Admitted sourcePoint (hdr 2) (.masterSet (hdr 2) 3 65535 65535) ∧ (hdr 2).fade? = some none) ∧
      (sourcePoint.source 4).mayForce = false ∧ Schedulable sourcePoint (hdr 4) 1 false ∧
      Admitted sourcePoint (hdr 4) (.forceSet (hdr 4) ⟨0, 9, 1, 0⟩ 1 12) ∧
      Admitted sourcePoint (hdr 4) (.forceClear (hdr 4) ⟨0, 9, 1, 0⟩) ∧
      Admitted sourcePoint (hdr 4) (.masterSet (hdr 4) 3 0 0) ∧
      (let s := almostFull.setGroup 127 ⟨0, 1, 1⟩;
        Schedulable s (hdr 4) 1 false ∧ Admitted s (hdr 4) (.freeze (hdr 4) 127) ∧ Admitted s (hdr 4) (.thaw (hdr 4) 127) ∧
          (s.group 127).count ≠ 0) ∧
      (Admitted almostFull (hdr 4) (.freeze (hdr 4) 127) ∧ (almostFull.group 127).count = 0) ∧
      Admitted almostFull (hdr 4) (.platePlay (hdr 4) 7) ∧ Admitted almostFull (hdr 4) (.plateStop (hdr 4) 7) := by
  repeat' apply And.intro
  all_goals decide +kernel

theorem test_meets_FramesWrapAndFollowTheModifiers :
    ((hdr 2).mod? 2 = none ∧ (hdr 2).mod? 3 = none) ∧
      ((hdr 2 [⟨3, 65535⟩]).mod? 3 = some 65535 ∧ (hdr 2 [⟨3, 65536⟩]).mod? 3 = some 65536) ∧
      ((hdr 2 [⟨2, 4⟩]).mod? 2 = some 4 ∧ isBefore 4 (4 + 1) = true) ∧
      (isBefore 65540 (4 + 1) = false ∧ ((65540 : Word) - (4 + 1)).toNat ≤ 65535) ∧
      (isBefore 65541 (4 + 1) = false ∧ 65535 < ((65541 : Word) - (4 + 1)).toNat) := by decide

theorem test_meets_FlushCompletes :
    let s := after (.take (hdr 2) consoleTake) State.reset;
    Admitted s (hdr 2) (.flush (hdr 2) 2 (some 0)) ∧ (hdr 2).src = (2 : Byte).toNat ∧
      s.queue.any (Entry.flushed 2 (some 0)) = true ∧ (⟨0, 0⟩ : Handle) ∈ takeHandles s.queue ∧
      (Admitted s (hdr 0) (.flush (hdr 0) 4 none) ∧ (hdr 0).src = 0 ∧ (4 : Byte).toNat ≤ 4) ∧
      ∀ hd ∈ takeHandles s.queue, hd.slot ≠ 1 := by decide +kernel

/-- Cue 5 of list A, loaded with two actions. -/
def cueLoaded : State := after (.loadCue (hdr 1) ⟨511, 0, 0, some .go, [.freeze 0, .releaseSource]⟩) State.reset

/-- A slot 191 whose fade-out count ends at the frame start, in the count. -/
def endingAt191 : State :=
  (heldAt191 (record .fadingOut 0 [0])).setWork { Work.none with phase := .counting, fadesDue := [191] }

theorem test_meets_ReadsWithoutClearComplete :
    ((takeDue.setWork { Work.none with phase := .applying, lossDue := [4] }).work.phase = .applying ∧
        endingAt191.work.phase = .counting ∧ State.reset.work.phase = .idle ∧ rendering.work.phase = .rendering ∧
        State.reset.work.evaluation = none) ∧
      (Admitted State.reset (hdr 4) (.readContribution (hdr 4) (.slot 191) none) ∧
        ((State.reset.met (hdr 4)).settleToPass.slot 191).record = none) ∧
      (Admitted endingAt191 (hdr 4) (.readContribution (hdr 4) (.slot 191) none) ∧
        ((endingAt191.met (hdr 4)).settleToPass.slot 191).record = none) ∧
      (let s := heldAt191 (record .held 4095 [0]);
        Admitted s (hdr 4) (.readContribution (hdr 4) (.slot 191) (some ⟨15, 1⟩)) ∧
          ((s.met (hdr 4)).settleToPass.slot 191).record = some (record .held 4095 [0]) ∧
          windowFits (record .held 4095 [0]) ⟨15, 1⟩ = true) ∧
      (Admitted State.reset (hdr 4) (.readQueue (hdr 4) 63 1) ∧ (63 : Byte).toNat + (1 : Byte).toNat ≤ 64) ∧
      (Admitted State.reset (hdr 4) (.readOverrides (hdr 4) (some ⟨2304, 256⟩)) ∧ forceWindowFits ⟨2304, 256⟩ = true) ∧
      (let u := (cueLoaded.met (hdr 4)).evaluateAll 40;
        Admitted cueLoaded (hdr 4) (.readCue (hdr 4) 511 (some ⟨1, 1⟩)) ∧ (u.cue 511).state ≠ .empty ∧
          (u.cue 511).windowFits ⟨1, 1⟩ = true) ∧
      Admitted State.reset (hdr 4) (.readCue (hdr 4) 0 none) ∧
      (Admitted bothLists (hdr 4) (.readList (hdr 4) 1) ∧ bothLists.work.evaluation ≠ none) := by
  repeat' apply And.intro
  all_goals decide +kernel

/-- Plate 7 holds a clip of one image of one line. -/
def onePlate (state : PlateState) (mode : EndMode) : State :=
  { (State.reset.setDescriptor 0 ⟨0, 1, true, true⟩).setPlate 7
    { state, loadOpen := false, width := 1, height := 1, hold := 1, endMode := mode, clip := [0], image := 0, held := 0,
      late := 65535, wasPlaying := true, cleared := false } with descriptorFree := [9] }

theorem test_meets_ReadsWithClearComplete :
    (∀ i ∈ ([.readLine (hdr 1) 7 1, .readInput (hdr 1) 3 1, .readTile (hdr 1) 63 1, .readLink (hdr 1) 3 1] : List Instr),
        Admitted State.reset (hdr 1) i) ∧ (hdr 1).src ≤ 1 ∧
      (∀ i ∈ ([.readLine (hdr 4) 7 0, .readInput (hdr 4) 3 0, .readTile (hdr 4) 63 0, .readLink (hdr 4) 3 0] : List Instr),
        Admitted State.reset (hdr 4) i) ∧
      (let s := onePlate .stopped .loop;
        Admitted s (hdr 1) (.readPlate (hdr 1) 7 1 (some ⟨0, 1⟩)) ∧ (s.plate 7).windowFits ⟨0, 1⟩ = true) ∧
      (∀ i ∈ ([.readLine (hdr 2) 7 1, .readInput (hdr 2) 3 1, .readTile (hdr 2) 63 1, .readLink (hdr 2) 3 1,
          .readPlate (hdr 2) 7 1 none] : List Instr), Admitted State.reset (hdr 2) i) ∧ 2 ≤ (hdr 2).src ∧
      (let s := heldAt191 (record .held 4095 [0]);
        let p := (s.met (hdr 4)).settleToPass;
        Admitted s (hdr 4) (.readContribution (hdr 4) (.handle 191 255) (some ⟨15, 1⟩)) ∧
          p.matching ⟨191, 255⟩ = some (record .held 4095 [0]) ∧ windowFits (record .held 4095 [0]) ⟨15, 1⟩ = true ∧
          p.matching ⟨191, 254⟩ = none ∧
          Admitted s (hdr 4) (.readContribution (hdr 4) (.ownerName 2 4095) none) ∧ p.named 2 4095 = some 191 ∧
          Admitted s (hdr 4) (.readContribution (hdr 4) (.ownerName 4 1) none) ∧ p.named 4 1 = none) := by
  repeat' apply And.intro
  all_goals decide +kernel

theorem test_meets_OutputConfigurationCompletes :
    (hdr 1).src ≤ 1 ∧ Admitted State.reset (hdr 1) (.setLine (hdr 1) 7 1 384 2) ∧
      Admitted State.reset (hdr 1) (.setLine (hdr 1) 0 0 1 0) ∧ onOff 1 = some true ∧ onOff 0 = some false ∧
      Admitted State.reset (hdr 1) (.setInput (hdr 1) 3 1) ∧
      Admitted State.reset (hdr 1) (.setLink (hdr 1) 3 63 65535) ∧
      Admitted State.reset (hdr 1) (.setLink (hdr 1) 3 1 0) := by decide +kernel

/-- One descriptor of one line at the last address a plate of width 1 can have. -/
def lastLine : DescriptorField := ⟨4294967292, 1, 1, 0⟩

theorem test_meets_LoadPlateCompletes :
    (let b : LoadPlateBody := ⟨7, 0, 1, some ⟨1, 1, 255, 2⟩, [lastLine, lastLine]⟩;
      let s := onePlate .ended .loop;
      Admitted s (hdr 1) (.loadPlate (hdr 1) b) ∧ onOff b.last = some true ∧
        plateFirstOf ⟨1, 1, 255, 2⟩ = some .black ∧ descriptorsFit 1 1 b.descriptors = true ∧
        (s.plate 7).state ≠ .playing ∧ s.plateShown 7 = false ∧
        b.descriptors.length ≤ s.descriptorFree.length + (s.plate 7).clip.length ∧
        ((s.descriptorFree ++ (s.plate 7).clip).take 2).Nodup ∧ (8 : Nat) ∉ s.descriptorFree ++ (s.plate 7).clip) ∧
      (let b : LoadPlateBody := ⟨7, 1, 0, none, [lastLine]⟩;
        let s := (onePlate .undefined .loop).setPlate 7
          { (onePlate .undefined .loop).plate 7 with loadOpen := true };
        Admitted s (hdr 1) (.loadPlate (hdr 1) b) ∧ onOff b.last = some false ∧ b.first = none ∧
          (s.plate 7).loadOpen = true ∧ descriptorsFit (s.plate 7).width (s.plate 7).height b.descriptors = true ∧
          s.imageCount (s.plate 7).clip + (b.descriptors.filter endOfImageMark).length ≤ 256 ∧
          b.descriptors.length ≤ s.descriptorFree.length ∧ (s.descriptorFree.take 1).Nodup) := by decide +kernel

theorem test_meets_LoadCueCompletes :
    (let b : LoadCueBody := ⟨511, 1, 0, some (.follow 65535), List.replicate 32 (.masterSet 3 65535 65535)⟩;
      Admitted State.reset (hdr 2) (.loadCue (hdr 2) b) ∧ listOf b.list = some 1 ∧
        State.reset.mayEdit (hdr 2) 1 = true ∧ (State.reset.cue 511).inList = false ∧
        b.actions.mapM State.reset.actionOf = some (List.replicate 32 (.masterSet 3 65535 65535)) ∧
        (State.reset.source (State.reset.list 1).acting).mayForce = true ∧
        triggerOf (.follow 65535) = some (.follow 65535) ∧
        b.actions.length ≤ State.reset.actionFree.length + (State.reset.cue 511).chain.length) ∧
      (let b : LoadCueBody := ⟨511, 0, 1, none, [.thaw 0]⟩;
        Admitted cueLoaded (hdr 1) (.loadCue (hdr 1) b) ∧ listOf b.list = some 0 ∧ cueLoaded.mayEdit (hdr 1) 0 = true ∧
          (cueLoaded.cue 511).inList = false ∧ b.actions.mapM cueLoaded.actionOf = some [.thaw 0] ∧
          ([.thaw 0] : List Action).any Action.needsForce = false ∧ b.trigger = none ∧
          (cueLoaded.cue 511).state = .loaded ∧ (cueLoaded.cue 511).list = 0 ∧
          (cueLoaded.cue 511).chain.length + b.actions.length ≤ 64 ∧ 1 ≤ cueLoaded.actionFree.length ∧
          (cueLoaded.actionFree.take 1).Nodup ∧ (0 : Nat) ∉ cueLoaded.actionFree.take 1) ∧
      ((State.reset.actionFree ++ (State.reset.cue 511).chain).take 32).Nodup := by
  repeat' apply And.intro
  all_goals decide +kernel

/-- Cue 0 stands alone in list A, behind `cueLoaded`. -/
def oneLinked : State :=
  afterAll [.loadCue (hdr 1) ⟨0, 0, 0, some .go, [.releaseSource]⟩, .linkCue (hdr 1) 0 0 .tail] cueLoaded

/-- Cue 1 stands behind cue 0 in list A, which is in a given state with a given head; cue 511 is in no list. -/
def twoLinked (st : ListState) (head : Option Nat) : State :=
  let s := afterAll [.loadCue (hdr 1) ⟨1, 0, 0, some .go, [.thaw 0]⟩, .linkCue (hdr 1) 0 1 .tail] oneLinked
  s.setList 0 { s.list 0 with state := st, head }

/-- A state as a list command of SAFETY or AUTOMATION is judged by: the frame met, the evaluation taken. -/
def judgedBy (s : State) (h : Header) : State := (s.met h).evaluateAll 40

theorem test_meets_CueEditsComplete :
    (let u := judgedBy oneLinked (hdr 1);
      listOf 0 = some 0 ∧ oneLinked.work.evaluation = none ∧ u.mayEdit (hdr 1) 0 = true ∧ (u.cue 511).state = .loaded ∧
        (u.cue 511).list = 0 ∧ Admitted oneLinked (hdr 1) (.linkCue (hdr 1) 0 511 .tail) ∧ (u.list 0).tail = some 0 ∧
        (u.list 0).tail ≠ some 511) ∧
      (let u := judgedBy cueLoaded (hdr 1);
        Admitted cueLoaded (hdr 1) (.linkCue (hdr 1) 0 511 .tail) ∧ (u.list 0).tail = none ∧
          (u.cue 511).state = .loaded) ∧
      (let u := judgedBy oneLinked (hdr 1);
        Admitted oneLinked (hdr 1) (.linkCue (hdr 1) 0 511 (.after 0)) ∧ (u.cue 0).inList = true ∧ (u.cue 0).list = 0) ∧
      (let u := judgedBy oneLinked (hdr 1);
        Admitted oneLinked (hdr 1) (.unlinkCue (hdr 1) 0) ∧ ¬((u.list 0).state = .running ∧ (u.list 0).head = some 0)) ∧
      (Admitted oneLinked (hdr 1) (.eraseCue (hdr 1) 511) ∧ oneLinked.mayEdit (hdr 1) 0 = true ∧
        (oneLinked.cue 511).state = .loaded) ∧
      (let s := twoLinked .running (some 1);
        let u := judgedBy s (hdr 1);
        Admitted s (hdr 1) (.linkCue (hdr 1) 0 511 (.after 0)) ∧ (u.cue 0).next = some 1 ∧ (u.list 0).head = some 1 ∧
          Admitted s (hdr 1) (.linkCue (hdr 1) 0 511 (.after 1)) ∧ (u.cue 1).next = none ∧ (u.list 0).tail = some 1 ∧
          Admitted s (hdr 1) (.unlinkCue (hdr 1) 0) ∧ u.predecessor 0 0 = none ∧ (u.list 0).first = some 0 ∧
          Admitted s (hdr 1) (.unlinkCue (hdr 1) 1) ∧ (u.list 0).state = .running ∧ (u.cue 1).inList = true) ∧
      (let s := twoLinked .running (some 0);
        let u := judgedBy s (hdr 1);
        (u.cue 0).next = some 1 ∧ (u.list 0).head ≠ some 1 ∧ Admitted s (hdr 1) (.unlinkCue (hdr 1) 1) ∧
          u.predecessor 0 1 = some 0 ∧ (0 : Nat) ≠ 1 ∧ (u.list 0).tail = some 1) ∧
      (let s := twoLinked .stopped (some 1);
        let u := judgedBy s (hdr 1);
        Admitted s (hdr 1) (.unlinkCue (hdr 1) 1) ∧ (u.list 0).head = some 1 ∧
          ¬((u.list 0).state = .running ∧ (u.list 0).head = some 1)) := by
  repeat' apply And.intro
  all_goals decide +kernel

/-- A state whose list A is in a given state. -/
def listIn (st : ListState) (go : Bool) (s : State) : State :=
  s.setList 0 { s.list 0 with state := st, goPending := go, loop := 255 }

theorem test_meets_ListCommandsComplete :
    (Admitted oneLinked (hdr 1) (.setList (hdr 1) 0 4 255) ∧ listOf 0 = some 0 ∧ (oneLinked.list 0).state = .stopped ∧
        (oneLinked.source 4).mayForce = false ∧ oneLinked.listNeedsForce 0 = false) ∧
      (Admitted oneLinked (hdr 1) (.setList (hdr 1) 0 2 0) ∧ (oneLinked.source 2).mayForce = true) ∧
      (let u := judgedBy oneLinked (hdr 1);
        Admitted oneLinked (hdr 1) (.startList (hdr 1) 0) ∧ oneLinked.work.evaluation = none ∧
          u.mayEdit (hdr 1) 0 = true ∧ (u.list 0).state ≠ .running ∧ (u.list 0).first ≠ none) ∧
      (let u := judgedBy bothLists (hdr 1);
        Admitted bothLists (hdr 1) (.startList (hdr 1) 1) ∧ bothLists.work.evaluation ≠ none ∧ listOf 1 = some 1 ∧
          u.mayEdit (hdr 1) 1 = true ∧ (u.list 1).state ≠ .running ∧ (u.list 1).first ≠ none) ∧
      (let s := listIn .ended false oneLinked;
        let u := judgedBy s (hdr 1);
        Admitted s (hdr 1) (.stopList (hdr 1) 0) ∧ (u.list 0).state ≠ .stopped ∧ u.mayEdit (hdr 1) 0 = true ∧
          Admitted s (hdr 0) (.go (hdr 0) 0) ∧ ((judgedBy s (hdr 0)).list 0).state = .ended) ∧
      (let s := listIn .running false oneLinked;
        let u := judgedBy s (hdr 1);
        Admitted s (hdr 1) (.go (hdr 1) 0) ∧ (hdr 1).src = (u.list 0).acting ∧ (u.list 0).state = .running ∧
          (u.list 0).goPending = false ∧ Admitted s (hdr 1) (.startList (hdr 1) 0) ∧ (u.list 0).first ≠ none ∧
          u.mayEdit (hdr 1) 0 = true) ∧
      (let s := listIn .running true oneLinked;
        Admitted s (hdr 0) (.go (hdr 0) 0) ∧ (hdr 0).src = 0 ∧ ((judgedBy s (hdr 0)).list 0).goPending = true) ∧
      (Admitted oneLinked (hdr 0) (.go (hdr 0) 0) ∧ ((judgedBy oneLinked (hdr 0)).list 0).state = .stopped) ∧
      (let u := judgedBy oneLinked (hdr 1);
        Admitted oneLinked (hdr 1) (.stopList (hdr 1) 0) ∧ u.mayEdit (hdr 1) 0 = true ∧ (u.list 0).state = .stopped) ∧
      (Admitted oneLinked (hdr 2) (.go (hdr 2) 0) ∧ (hdr 2).src ≠ 0 ∧
        (hdr 2).src ≠ ((judgedBy oneLinked (hdr 2)).list 0).acting) := by
  repeat' apply And.intro
  all_goals decide +kernel

/-- The due entry is the next one, and nothing waits behind it. -/
theorem test_due_first (b : EntryBody) (s : State) (hs : s.device = .running) : DueFirst (withDue b s) (dueEntry b) [] :=
  ⟨hs, rfl⟩

/-- SOURCE fields as R23 takes them. -/
def sourceFields : PointFields :=
  { kind := .source, home := 12, curve := 0, master := none, offset := 0, member := false }

theorem test_meets_ConfigurationEntriesApply :
    (let s := withDue (.setPoint 9 sourceFields) sourcePoint;
      DueFirst s (dueEntry (.setPoint 9 sourceFields)) [] ∧ (s.point 9).binding.allows .source = true ∧
        Kind.source = (s.point 9).fields.kind ∧ s.force 9 = some ⟨.park, 12, 1⟩) ∧
      (let s := withDue (.setPoint 8 sourceFields) State.reset;
        DueFirst s (dueEntry (.setPoint 8 sourceFields)) [] ∧ s.slotsWhere (fun c => s.covers c.selector 8) = [] ∧
          s.force 8 = none) ∧
      (let b : Binding := .lamp 7 382 2;
        let s := withDue (.bindPoint 2559 b) (State.reset.setOccupant 3071 (some 2559));
        DueFirst s (dueEntry (.bindPoint 2559 b)) [] ∧ b.allows (s.point 2559).fields.kind = true ∧
          b.outputs = [3070, 3071] ∧ s.occupant 3070 = none ∧ s.occupant 3071 = some 2559) ∧
      (let s := withDue (.setTile 63 ⟨true, 3, 15, 0, 0, 1⟩)
          (State.reset.setTile 63 { Tile.por 63 with fromSource := some 0, elapsed := 1 });
        DueFirst s (dueEntry (.setTile 63 ⟨true, 3, 15, 0, 0, 1⟩)) [] ∧ (s.tile 63).fromSource.isSome = true ∧
          1 ≤ (s.tile 63).elapsed) := by decide +kernel

/-- BIND_POINT_APPLY in front, a BIND_POINT of the last point to the last tile parameter due. -/
def bindDue : State :=
  { withDue (.bindPoint 2559 (.tile 63 .source)) State.reset with pending := [.bindPointApply] }

theorem test_canonical_bindDue : Canonical bindDue := by constructor <;> decide +kernel

/-- Its row at its turn, and a step of the part, from states whose map and bindings agree. -/
theorem test_meets_BindingKeepsTheOccupancyMap :
    (Canonical bindDue ∧ OccupancyAgrees bindDue ∧ ∃ t, step bindDue = .next t) ∧
    OccupancyAgrees (withDue (.bindPoint 0 .unbound) State.reset) ∧
      DueFirst (withDue (.bindPoint 0 .unbound) State.reset) (dueEntry (.bindPoint 0 .unbound)) [] ∧
      ∃ t, exec .bindPointApply (withDue (.bindPoint 0 .unbound) State.reset) = .next t :=
  ⟨⟨test_canonical_bindDue, fun p k => by
      have ho : bindDue.occupant k = none := rfl
      have hp : (bindDue.point p).binding = .unbound := rfl
      rw [ho, hp]; simp [Binding.outputs], _, rfl⟩,
    fun p k => by
      have ho : (withDue (.bindPoint 0 .unbound) State.reset).occupant k = none := rfl
      have hp : ((withDue (.bindPoint 0 .unbound) State.reset).point p).binding = .unbound := rfl
      rw [ho, hp]; simp [Binding.outputs],
    ⟨rfl, rfl⟩, _, rfl⟩

/-- A PENDING TAKE of name 4095 in slot 191, and another holder of that name in slot 0. -/
def succession (st : SourceState) : State :=
  (((withDue (.take ⟨191, 255⟩) (heldAt191 (record .pending 4095 [3]))).setSlot 0 ⟨0, some (record .held 4095 [4])⟩).setNamed
    2 4095 (some 0)).setSource 2 { Source.por 2 with state := st }

theorem test_meets_ContributionEntriesApply :
    (let s := succession .live;
      DueFirst s (dueEntry (.take ⟨191, 255⟩)) [] ∧ s.matching ⟨191, 255⟩ = some (record .pending 4095 [3]) ∧
        ¬((s.source 2).state = .lost ∧ (record .pending 4095 [3]).policy = .release) ∧ s.named 2 4095 = some 0) ∧
      (let s := withDue (.take ⟨191, 255⟩) (heldAt191 (record .pending 0 [3]));
        DueFirst s (dueEntry (.take ⟨191, 255⟩)) [] ∧ s.matching ⟨191, 255⟩ = some (record .pending 0 [3])) ∧
      (let s := withDue (.take ⟨191, 255⟩) (heldAt191 (record .pending 1 [3]));
        s.matching ⟨191, 255⟩ = some (record .pending 1 [3]) ∧ s.named 2 1 = none) ∧
      (∀ phase ∈ [Phase.pending, .fadingIn, .held, .fadingOut],
        let s := withDue (.release (.handle ⟨191, 255⟩) (some 0))
          ((heldAt191 { record phase 4095 [3] with owner := 1 }));
        DueFirst s (dueEntry (.release (.handle ⟨191, 255⟩) (some 0))) [] ∧
          s.find 1 (.handle ⟨191, 255⟩) = some (191, { record phase 4095 [3] with owner := 1 })) ∧
      DueFirst (withDue (.releaseSource 4 none) noSlot) (dueEntry (.releaseSource 4 none)) [] ∧
      (∀ phase ∈ [Phase.fadingIn, .fadingOut],
        let s := (heldAt191 { record phase 4095 [3] with owner := 1 });
        DueFirst (withDue (.pause (.handle ⟨191, 255⟩)) s) (dueEntry (.pause (.handle ⟨191, 255⟩))) [] ∧
          DueFirst (withDue (.resume (.handle ⟨191, 255⟩)) s) (dueEntry (.resume (.handle ⟨191, 255⟩))) [] ∧
          s.find 1 (.handle ⟨191, 255⟩) = some (191, { record phase 4095 [3] with owner := 1 })) := by decide +kernel

theorem test_meets_OverrideAndPlateEntriesApply :
    (let x : Selector := ⟨0, 9, 1, 0⟩;
      let s := withDue (.forceSet x .park (.level 12)) sourcePoint;
      DueFirst s (dueEntry (.forceSet x .park (.level 12))) [] ∧ 1 ≤ (s.group 0).stride ∧ s.forceForeign 1 x = false ∧
        s.forceUnsuits x .park (.level 12) = false ∧
        DueFirst (withDue (.forceClear x) s) (dueEntry (.forceClear x)) []) ∧
      (let s := withDue (.freeze 127) (frozenGroup.setFreezeCount 127 254);
        DueFirst s (dueEntry (.freeze 127)) [] ∧ s.freezeCount 127 < 255 ∧
          DueFirst (withDue (.thaw 127) s) (dueEntry (.thaw 127)) [] ∧ 0 < s.freezeCount 127) ∧
      DueFirst (withDue (.masterSet 3 65535 0) State.reset) (dueEntry (.masterSet 3 65535 0)) [] ∧
      DueFirst (withDue (.masterSet 3 0 65535) State.reset) (dueEntry (.masterSet 3 0 65535)) [] ∧
      (∀ st ∈ [PlateState.undefined, .stopped, .playing, .ended, .fault],
        DueFirst (withDue (.platePlay 7) (onePlate st .loop)) (dueEntry (.platePlay 7)) [] ∧
          DueFirst (withDue (.plateStop 7) (onePlate st .loop)) (dueEntry (.plateStop 7)) []) := by decide +kernel

theorem test_meets_ApplicationDropsAndEmptiesTheDueSet :
    (let s := withDue (.setPoint 0 sourceFields) (State.reset.setPoint 0 { Point.por 0 with binding := .lamp 0 0 1 });
      DueFirst s (dueEntry (.setPoint 0 sourceFields)) [] ∧ (s.point 0).binding.allows .source = false) ∧
      (let s := withDue (.setPoint 15 { sourceFields with kind := .colour }) (heldAt191 (record .held 0 [3]));
        DueFirst s (dueEntry (.setPoint 15 { sourceFields with kind := .colour })) [] ∧
          Kind.colour ≠ (s.point 15).fields.kind ∧ s.slotsWhere (fun c => s.covers c.selector 15) ≠ []) ∧
      (let s := withDue (.bindPoint 9 (.tile 63 .gain)) sourcePoint;
        DueFirst s (dueEntry (.bindPoint 9 (.tile 63 .gain))) [] ∧
          (Binding.tile 63 .gain).allows (s.point 9).fields.kind = false) ∧
      (let s := withDue (.bindPoint 9 (.lamp 7 383 1)) (State.reset.setOccupant 3071 (some 8));
        DueFirst s (dueEntry (.bindPoint 9 (.lamp 7 383 1))) [] ∧ (3071 : Nat) ∈ (Binding.lamp 7 383 1).outputs ∧
          s.occupant 3071 = some 8 ∧ (8 : Nat) ≠ 9) ∧
      (let s := succession .lost;
        DueFirst s (dueEntry (.take ⟨191, 255⟩)) [] ∧ s.matching ⟨191, 255⟩ = some (record .pending 4095 [3]) ∧
          (s.source 2).state = .lost ∧ (record .pending 4095 [3]).policy = .release) ∧
      (let s := withDue (.release (.name 1) none) State.reset;
        DueFirst s (dueEntry (.release (.name 1) none)) [] ∧ s.find 1 (.name 1) = none ∧
          DueFirst (withDue (.pause (.name 1)) s) (dueEntry (.pause (.name 1))) [] ∧
          DueFirst (withDue (.resume (.name 1)) s) (dueEntry (.resume (.name 1))) []) ∧
      (let s := withDue (.pause (.handle ⟨191, 255⟩)) (heldAt191 { record .held 0 [3] with owner := 1 });
        DueFirst s (dueEntry (.pause (.handle ⟨191, 255⟩))) [] ∧
          s.find 1 (.handle ⟨191, 255⟩) = some (191, { record .held 0 [3] with owner := 1 })) ∧
      (let s := withDue (.forceClear ⟨0, 0, 1, 0⟩) (State.reset.setForce 0 (some ⟨.cap, 1, 2⟩));
        DueFirst s (dueEntry (.forceClear ⟨0, 0, 1, 0⟩)) [] ∧ s.forceForeign 1 ⟨0, 0, 1, 0⟩ = true ∧
          DueFirst (withDue (.forceSet ⟨0, 0, 1, 0⟩ .cap (.level 1)) s) (dueEntry (.forceSet ⟨0, 0, 1, 0⟩ .cap (.level 1)))
            []) ∧
      (let s := withDue (.freeze 127) frozenGroup;
        DueFirst s (dueEntry (.freeze 127)) [] ∧ 255 ≤ s.freezeCount 127) ∧
      (let s := withDue (.thaw 127) State.reset;
        DueFirst s (dueEntry (.thaw 127)) [] ∧ s.freezeCount 127 = 0) ∧
      (let s := withDue (.setPoint 9 sourceFields) (sourcePoint.setForce 9 (some ⟨.park, 13, 1⟩));
        DueFirst s (dueEntry (.setPoint 9 sourceFields)) [] ∧ (s.point 9).binding.allows .source = true ∧
          Kind.source = (s.point 9).fields.kind ∧ s.force 9 = some ⟨.park, 13, 1⟩) ∧
      (∀ phase ∈ [Phase.pending, .held],
        let s := heldAt191 { record phase 0 [3] with owner := 1 };
        DueFirst (withDue (.resume (.handle ⟨191, 255⟩)) s) (dueEntry (.resume (.handle ⟨191, 255⟩))) [] ∧
          s.find 1 (.handle ⟨191, 255⟩) = some (191, { record phase 0 [3] with owner := 1 })) ∧
      (let s := withDue (.forceSet ⟨0, 9, 1, 0⟩ .park (.level 13)) sourcePoint;
        DueFirst s (dueEntry (.forceSet ⟨0, 9, 1, 0⟩ .park (.level 13))) [] ∧
          s.forceForeign 1 ⟨0, 9, 1, 0⟩ = false ∧ s.forceUnsuits ⟨0, 9, 1, 0⟩ .park (.level 13) = true) ∧
      ((State.reset.plate 7).state = .undefined ∧
        DueFirst (withDue (.plateStop 7) State.reset) (dueEntry (.plateStop 7)) []) := by
  repeat' apply And.intro
  all_goals decide +kernel

/-- A due entry that is no RELEASE, and behind it one that waits and is no TAKE. -/
theorem test_meets_ApplicationDropsAndEmptiesTheDueSet_waiting :
    let waits := { dueEntry (.freeze 127) with due := false };
    (∀ e ∈ [dueEntry (.thaw 127), waits], e.due = true → ∀ a fade, e.body ≠ .release a fade) ∧ waits.due = false ∧
      ∀ hd, waits.body ≠ .take hd := by
  simp [dueEntry]

theorem test_meets_LinkAndResetRowsComplete :
    (State.reset.device ≠ .resetLow ∧ State.reset.transaction = false) ∧
      (State.reset.device = .running ∧ State.reset.softClear = .none ∧
        splitFrame [0x5A, 4, 0, 0, 0] = some ⟨0x5A, 4, [], []⟩ ∧ (4 : Byte).toNat ≤ 4 ∧ (0x5A : Byte) ∉ commandCodes) ∧
      splitFrame [] = none ∧ splitFrame [0x59, 4, 0, 0, 1] = none := by decide +kernel

/-- The clauses of LinkAndResetRowsComplete about RESET#, the end of initialisation and the end of a SOFT_CLEAR. -/
theorem test_meets_LinkAndResetRowsComplete_reset :
    (Canonical smallState ∧ Canonical low ∧ low.device = .resetLow) ∧ initialising.device = .initialising ∧
      ({ State.reset with softClear := .cleared } : State).device = .running :=
  ⟨⟨test_canonical_small, by constructor <;> decide +kernel, rfl⟩, rfl, rfl⟩

/-- A timer with the reference on, in a state, with acquire count `a`, bad run `b` and a last pulse at 0. -/
def timed (st : TimerState) (cameFrom : CameFrom) (a b : Nat) : State :=
  State.reset.setTimer { lockedTimer with state := st, cameFrom := cameFrom, acquireCount := a, badRun := b }

theorem test_meets_ReferencePulsesComplete :
    (State.reset.device = .running ∧ State.reset.now ≤ 0 ∧ State.reset.timer.refEnable = false) ∧
      ((timed .freeRun .freeRun 0 0).timer.refEnable = true ∧ (timed .freeRun .freeRun 0 0).timer.state = .freeRun) ∧
      (timed .holdover .freeRun 0 0).timer.state = .holdover ∧
      (let x := (timed .acquiring .freeRun 6 0).timer;
        x.state = .acquiring ∧ x.expiryDue = false ∧ x.acquireCount < 7 ∧
          (x.lastPulse.map (1080000 + 4218 - ·)).any (goodInterval (nominalPeriod x.rate)) = true ∧
          (x.lastPulse.map (1080000 + 4219 - ·)).any (goodInterval (nominalPeriod x.rate)) = false) ∧
      (let x := (timed .acquiring .freeRun 7 0).timer;
        x.lastPulse.map (1080000 - ·) = some 1080000 ∧ goodInterval (nominalPeriod x.rate) 1080000 = true ∧
          7 ≤ x.acquireCount ∧ x.lastFrameStart + nominalPeriod x.rate / 4 ≤ 1080000) ∧
      (let x := { (timed .acquiring .freeRun 7 0).timer with lastFrameStart := 810001 };
        x.lastPulse.map (1080000 - ·) = some 1080000 ∧ 7 ≤ x.acquireCount ∧
          1080000 < x.lastFrameStart + nominalPeriod x.rate / 4 ∧ 810000 + nominalPeriod x.rate / 4 ≤ 1080000) ∧
      (let x := locked.timer;
        x.state = .locked ∧ 944999 < x.lastFrameStart + (nominalPeriod x.rate - nominalPeriod x.rate / 8) ∧
          x.lastFrameStart + (nominalPeriod x.rate - nominalPeriod x.rate / 8) ≤ 945000 ∧
          goodInterval (nominalPeriod x.rate) 1080000 = true ∧ goodInterval (nominalPeriod x.rate) 945000 = false) ∧
      ((timed .locked .freeRun 0 2).timer.badRun < 3 ∧ 3 ≤ (timed .locked .freeRun 0 3).timer.badRun ∧
        (timed .locked .freeRun 0 3).timer.holdoverLimit ≠ 0 ∧
        ({ (timed .locked .freeRun 0 3).timer with holdoverLimit := 0 } : Timer).holdoverLimit = 0) := by decide +kernel

theorem test_meets_TimerExpiriesComplete :
    (locked.device = .running ∧ locked.timer.expiryDue = false ∧ locked.timer.lastPulse = some 0 ∧
        locked.timer.state = .locked ∧ locked.timer.holdoverLimit ≠ 0) ∧
      ((timed .acquiring .holdover 3 0).timer.state = .acquiring ∧ (timed .acquiring .holdover 3 0).timer.cameFrom = .holdover) ∧
      State.reset.timer.state = .freeRun ∧
      (let s := State.reset.setTimer { lockedTimer with state := .holdover, holdoverCount := 65534 };
        s.timer.state = .holdover ∧ s.timer.holdoverCount < 65535) ∧
      (let s := State.reset.setTimer { lockedTimer with state := .holdover, expiryDue := true };
        s.timer.expiryDue = true ∧ s.timer.state = .holdover ∧
          s.now ≤ s.timer.lastFrameStart + nominalPeriod s.timer.rate) ∧
      (let n := nominalPeriod 1;
        let x : Timer := { lockedTimer with holdoverLimit := 0, lastFrameStart := n / 8 };
        locked.timer.lastPulse = some 0 ∧ (x.state = .locked ∧ x.holdoverLimit = 0 ∧ max 0 (0 + n + n / 8) ≤ x.lastFrameStart + n) ∧
          ¬max 0 (0 + n + n / 8) ≤ (n / 8 - 1) + n ∧ (n / 8 - 1) + n < max 0 (0 + n + n / 8)) ∧
      (let s := timed .acquiring .freeRun 0 0;
        s.timer.lastPulse = some 0 ∧ s.timer.state = .acquiring ∧ s.timer.cameFrom = .freeRun ∧
          s.timer.lastFrameStart + nominalPeriod 1 < max s.now (0 + nominalPeriod 1 + nominalPeriod 1 / 8)) ∧
      State.reset.timer.lastPulse = none ∧
      (let s := State.reset.setTimer { (timed .acquiring .holdover 0 0).timer with expiryDue := true };
        s.timer.expiryDue = true ∧ s.timer.state = .acquiring ∧ s.timer.refEnable = true) ∧
      (let s := { State.reset.setTimer { lockedTimer with state := .holdover, expiryDue := true } with
          now := nominalPeriod 1 + 1 };
        s.timer.expiryDue = true ∧ s.timer.state = .holdover ∧ s.timer.lastFrameStart + nominalPeriod 1 < s.now) := by
  decide +kernel

/-- Frame 25 is next, with a source that is not supervised, one LOST, one at 2 and one at its last tick. -/
def beforeTick : State :=
  ((((lostClient.setSource 3 { Source.por 3 with reload := 1, counter := 1 }).setSource 2
    { Source.por 2 with reload := 255, counter := 2 })).setTimer { State.reset.timer with pendingFrame := some 25 })

theorem test_meets_FrameStartsBeginTheirWork :
    (State.reset.work.phase = .idle ∧ State.reset.work.evaluation = none ∧ State.reset.work.idleDue = []) ∧
      (beforeTick.timer.pendingFrame.getD (beforeTick.timer.counter + 1) = 25 ∧
        tickAt beforeTick.settle.interval 25 = true ∧ tickAt beforeTick.settle.interval 26 = false) ∧
      (let u := beforeTick.settle;
        (u.source 0).reload = 0 ∧ (u.source 4).state = .lost ∧
          ((u.source 2).reload ≠ 0 ∧ (u.source 2).state = .live ∧ (u.source 2).counter ≠ 1) ∧
          (u.source 3).reload ≠ 0 ∧ (u.source 3).state = .live ∧ (u.source 3).counter = 1) := by decide +kernel

/-- Every count of a frame start that can end is due. -/
def dueWork : Work :=
  { Work.none with
    lossDue := [4], fadesDue := [191], mastersDue := [3], platesDue := [7], dissolvesDue := [63], wakesDue := [3],
    idleDue := [3] }

theorem test_meets_CountedEndsComplete :
    (State.reset.setWork dueWork).device = .running ∧ (4 : Fin 5).val ∈ dueWork.lossDue ∧
      ((191 : Fin 192).val ∈ dueWork.fadesDue ∧
        ((heldAt191 (record .fadingIn 7 [])).slot 191).record = some (record .fadingIn 7 []) ∧
        ((heldAt191 (record .fadingOut 0 [])).slot 191).record = some (record .fadingOut 0 [])) ∧
      (3 : Fin 4).val ∈ dueWork.mastersDue ∧
      ((7 : Fin 8).val ∈ dueWork.platesDue ∧
        (let s := onePlate .playing .holdLast;
          (s.plate 7).state = .playing ∧ s.imageCount (s.plate 7).clip ≤ (s.plate 7).image + 1 ∧
            (s.plate 7).endMode ≠ .loop) ∧
        ((onePlate .playing .loop).plate 7).endMode = .loop ∧
        (let s := (onePlate .playing .loop).setPlate 7 { (onePlate .playing .loop).plate 7 with clip := [0, 0] };
          (s.plate 7).image + 1 < s.imageCount (s.plate 7).clip)) ∧
      ((63 : Fin 64).val ∈ dueWork.dissolvesDue ∧
        ((State.reset.setTile 63 { Tile.por 63 with fromSource := some 12 }).tile 63).fromSource ≠ none) ∧
      ((3 : Fin 4).val ∈ dueWork.wakesDue ∧
        ((State.reset.setLink 3 { Link.por 3 with state := .waking }).link 3).state = .waking) ∧
      ((3 : Fin 4).val ∈ dueWork.idleDue ∧ (State.reset.link 3).inFlight = none) := by decide +kernel

/-- The last clause of CountedEndsComplete: canonical stores under the same frame work. -/
theorem test_meets_CountedEndsComplete_idle :
    Canonical (smallState.setWork dueWork) ∧ (smallState.setWork dueWork).device = .running ∧
      ((smallState.setWork dueWork).link 3).inFlight = none :=
  ⟨by constructor <;> decide +kernel, by decide +kernel, by decide +kernel⟩

/-- The show of `showLoaded` with its evaluation at list A, `fired` cues fired in it. -/
def evaluating (fired : Nat) (s : State) : State := s.setWork { s.work with evaluation := some ⟨0, fired⟩ }

theorem test_meets_CueFiringCompletes :
    (let s := evaluating 15 { showLoaded with queue := List.replicate 63 (dueEntry (.setWorklightLevel 1)) };
      s.device = .running ∧ s.work.evaluation = some ⟨0, 15⟩ ∧ (s.list 0).head = some 5 ∧ s.headDue 0 = true ∧
        (s.cue 5).chain.length ≤ s.queueRoom) ∧
      (let s := evaluating 0 (showLoaded.setCue 5 { showLoaded.cue 5 with next := some 5 });
        s.headDue 0 = true ∧ (s.cue 5).next = some 5) ∧
      ((showLoaded.cue 5).chain = [0] ∧ showLoaded.action 0 = .freeze 0) := by decide +kernel

/-- List A of `showLoaded` with a loop setting and passes remaining. -/
def looping (loop passes : Nat) : State := showLoaded.setList 0 { showLoaded.list 0 with loop, passes }

/-- `showLoaded` with its due head late or not. -/
def lateHead (late : Bool) (s : State) : State := s.setCue 5 { s.cue 5 with late }

theorem test_meets_PassesEndAndLateHeadsWait :
    ((looping 255 0).cue 5).next = none ∧ (5 : Nat) ∈ (looping 255 0).chain 0 ∧ ((looping 255 0).list 0).loop = 255 ∧
      (((looping 254 1).list 0).loop ≠ 255 ∧ 0 < ((looping 254 1).list 0).passes) ∧
      (((looping 254 0).list 0).loop ≠ 255 ∧ ((looping 254 0).list 0).passes = 0) ∧ (1 : Nat) ≠ 0 ∧
      (∀ late ∈ [true, false],
        (let s := lateHead late (evaluating 16 showLoaded);
          s.device = .running ∧ s.work.evaluation = some ⟨0, 16⟩ ∧ (s.list 0).head = some 5 ∧ s.headDue 0 = true ∧
            (s.cue 5).late = late) ∧
        (let s := lateHead late (evaluating 15 { showLoaded with queue := fullState.queue });
          s.device = .running ∧ s.work.evaluation = some ⟨0, 15⟩ ∧ (s.list 0).head = some 5 ∧ s.headDue 0 = true ∧
            s.queueRoom < (s.cue 5).chain.length ∧ (s.cue 5).late = late)) := by decide +kernel

theorem test_meets_RenderCompletePublishes :
    rendering.device = .running ∧ rendering.work.phase = .rendering ∧ rendering.work.evaluation = none ∧
      rendering.softClear ≠ .waiting := by decide +kernel

/-- Line 7 sending, with and without a set waiting. -/
def sendingLine (waiting : Option LineSet) : State :=
  State.reset.setLine 7
    { enabled := true, count := 384, rate := 2, sequence := 255, inFlight := some ⟨254, 1, 0, .empty⟩, waiting,
      slips := 65535, drops := 65535 }

/-- Link 3 sending at a place. -/
def sendingLink (content : LinkContent) (place : Nat) : State :=
  State.reset.setLink 3 { Link.por 3 with inFlight := some ⟨⟨255, 9, true, content, false⟩, place⟩ }

/-- The set of a tile 63 that shows BLACK. -/
def setOf63 : TileSet :=
  { tile := 63, params := ⟨65535, 65535, 65535, 65535, 0⟩, current := 0, fromSource := none, elapsed := 0, dissolve := 0,
    cropX := 0, cropY := 0 }

theorem test_meets_TransmitterEndsComplete :
    (let x := (sendingLine (some ⟨255, .empty⟩)).line 7;
      x.inFlight = some ⟨254, 1, 0, .empty⟩ ∧ x.waiting = some ⟨255, .empty⟩ ∧ x.enabled = true) ∧
      ((sendingLine none).line 7).waiting = none ∧
      (let f : LinkFrame := ⟨255, 9, true, .active (List.replicate 16 (some setOf63)), true⟩;
        ((sendingLink f.content 15).link 3).inFlight = some ⟨{ f with past := false }, 15⟩ ∧ f.packets ≤ 15 + 1 ∧
          ((sendingLink f.content 15).link 3).waiting = none ∧ 14 + 1 < f.packets ∧ f.setAt 15 = some setOf63) ∧
      (let f : LinkFrame := ⟨255, 9, true, .active [], false⟩;
        ((sendingLink f.content 14).link 3).inFlight = some ⟨f, 14⟩ ∧ 14 + 1 < f.packets ∧ f.setAt 15 = none) ∧
      State.reset.lateSources setOf63.tile = [] ∧
      (let x := (sendingLine none).line 7;
        x.enabled = true ∧ x.inFlight = some ⟨254, 1, 0, .empty⟩ ∧ x.waiting = none ∧ 11 * (4 + 1) ≤ 55 ∧
          (4 : Nat) < 4 + 1 ∧ (7 : Nat) < 8) ∧
      (State.reset.line 7).inFlight = none := by decide +kernel

/-- Link 3 sending its last packet with a set waiting. -/
def waitingLink : State :=
  State.reset.setLink 3 { Link.por 3 with inFlight := some ⟨⟨255, 9, true, .black, false⟩, 0⟩,
                                          waiting := some ⟨0, 10, false, .sleep, false⟩ }

theorem test_meets_TransmitterEndsComplete_waiting :
    Canonical waitingLink ∧ LinkFrame.packets ⟨255, 9, true, .black, false⟩ ≤ 0 + 1 ∧
      (waitingLink.link 3).waiting = some ⟨0, 10, false, .sleep, false⟩ :=
  ⟨by constructor <;> decide +kernel, by decide, rfl⟩

/-- The last clause of CountedEndsComplete where the link is SENDING, with and without a set waiting. -/
theorem test_meets_CountedEndsComplete_sending :
    Canonical (waitingLink.setWork dueWork) ∧ (3 : Fin 4).val ∈ (waitingLink.setWork dueWork).work.idleDue ∧
      ((waitingLink.setWork dueWork).link 3).inFlight ≠ none ∧ (waitingLink.link 3).waiting.isSome = true ∧
      ((sendingLink .black 0).link 3).inFlight ≠ none ∧ ((sendingLink .black 0).link 3).waiting = none :=
  ⟨by constructor <;> decide +kernel, by decide +kernel, by decide +kernel, rfl, by decide +kernel, rfl⟩

/-- A fetch of plate 7 for tile 63, with addresses left to read. -/
def fetchOf7 (reads : List Nat) (ended : Bool) : Fetch :=
  { tile := 63, source := 12, reads, columns := 1, line := 127, pixels := .empty, ended }

/-- A fetch in progress behind one that has ended, the tile showing that plate. -/
def fetching (reads : List Nat) : State :=
  { State.reset.setTile 63 { Tile.por 63 with current := 12 } with fetches := [fetchOf7 [] true, fetchOf7 reads false] }

theorem test_meets_MemoryReadsAndPinsComplete :
    ((fetching [0, 4]).device = .running ∧ (fetching [0, 4]).fetches = [fetchOf7 [] true] ++ fetchOf7 [0, 4] false :: [] ∧
        (∀ g ∈ [fetchOf7 [] true], g.ended = true) ∧ (fetchOf7 [0, 4] false).ended = false ∧
        2 ≤ (fetchOf7 [0, 4] false).reads.length) ∧
      ((fetchOf7 [4294967292] false).reads.length ≤ 1 ∧ (fetchOf7 [] false).reads.length ≤ 1) ∧
      plateOf (fetchOf7 [] false).source = some 7 := by decide +kernel

/-- Tile 63 shows plate 7, from whose canvas it takes one pixel, on link 3, which is ACTIVE. -/
def showing (x : Plate) : State :=
  let s := ((State.reset.setDescriptor 0 ⟨4294967292, 1, true, true⟩).setPlate 7 { x with width := 1, height := 1, clip := [0] })
  (s.setTile 63 { Tile.por 63 with fields := { (Tile.por 63).fields with enabled := true, link := 3, place := 15 },
                                   current := 12 }).setLink 3 { Link.por 3 with state := .active }

/-- A plate at rest. -/
def still : Plate := { Plate.por 7 with state := .stopped }

theorem test_canonical_showing : Canonical (showing still) := by constructor <;> decide +kernel

theorem test_meets_InputsAndFetchesFollowTheFrame :
    (showing still).holdsPlace 63 = true ∧ ((showing still).link ((showing still).tile 63).fields.link).state = .active ∧
      plateOf ((showing still).tile 63).current = some 7 ∧ ((showing still).plate 7).fetched = true ∧
      (showing still).cropReads 63 7 = [4294967292] ∧ (showing still).beginRender.portRead = some (4294967292, 1) ∧
      ((showing still).beginRender.fetches.map fun f => (f.source, f.reads)) = [(7 + 5, [4294967292])] ∧
      ((showing { still with cleared := true }).plate 7).cleared = true ∧ ((showing still).plate 7).cleared = false ∧
      (fetching [0]).lateSources setOf63.tile = [12] ∧ (7 : Nat) + 5 ∈ (fetching [0]).lateSources setOf63.tile ∧
      ((1023 : Nat) ≤ 1023 ∧ (0 : Nat) ≤ 1023 ∧ (1 : Nat) ≤ 1 ∧ (65535 : Nat) ≤ 65535) := by
  repeat' apply And.intro
  all_goals decide +kernel

/-- Point 2559 on a lamp pair, on one slot, or on GAIN of tile 63. -/
def bound (b : Binding) : State :=
  (State.reset.setPoint 2559 { Point.por 2559 with binding := b }).setOccupants (some 2559) b.outputs

/-- A render pass in progress, link 3 in a state, idle so far, with tile 63 on it. -/
def settling (st : LinkState) (idlePeriod idleCount : Nat) (enabled : Bool) (frame : Option LinkSending) : State :=
  (((sendingLine none).setWork { Work.none with phase := .rendering }).setLink 3
    { Link.por 3 with state := st, idlePeriod, idleCount, inFlight := frame }).setTile 63
      { Tile.por 63 with fields := { (Tile.por 63).fields with enabled, link := 3, place := 15 } }

theorem test_meets_RenderCompleteHandsItsOutputsOver :
    State.reset.occupant (lampOutput 7 383) = none ∧ State.reset.occupant (tileOutput 63 .gain) = none ∧
      ((bound (.lamp 7 382 2)).occupant (lampOutput 7 383) = some 2559 ∧
        ((bound (.lamp 7 382 2)).point 2559).binding = .lamp 7 382 2 ∧
        (bound (.lamp 7 382 2)).occupant (lampOutput 7 382) = some 2559) ∧
      (bound (.lamp 7 383 1)).occupant (lampOutput 7 383) = some 2559 ∧
      (bound (.tile 63 .gain)).occupant (tileOutput 63 .gain) = some 2559 ∧
      (let s := settling .standby 0 0 false none;
        s.device = .running ∧ s.work.phase = .rendering ∧ s.work.evaluation = none ∧ s.softClear ≠ .waiting ∧
          (s.line 7).enabled = true ∧ (s.line 7).inFlight ≠ none ∧ (s.line 0).enabled = false ∧
          (s.link 3).state = .standby ∧ (s.tile 63).fields.enabled = false) ∧
      (let s := settling .standby 0 0 true (some ⟨⟨255, 9, true, .black, false⟩, 0⟩);
        (s.link 3).inFlight ≠ none ∧ (s.tile 63).fields.enabled = true ∧ (s.tile 63).fields.link = 3 ∧
          (s.publish.tileParams 63).gain ≠ 0) ∧
      ((settling .waking 0 0 true none).link 3).state = .waking ∧
      (let x := (settling .active 65535 65533 false none).link 3;
        x.state = .active ∧ saturate 65535 x.idleCount < x.idlePeriod) ∧
      (let x := (settling .active 65535 65534 false none).link 3;
        0 < x.idlePeriod ∧ x.idlePeriod ≤ saturate 65535 x.idleCount) := by
  repeat' apply And.intro
  all_goals decide +kernel

theorem test_meets_MixesAndProductsKeepTheirBounds :
    ((1 : Nat) ≤ 65535 ∧ (65535 : Nat) ≤ 65535) ∧ (0 : Int) ≤ 65535 ∧ (-65535 : Int) ≤ 0 ∧
      (-65535 : Int).natAbs ≤ 65535 := by decide

theorem test_meets_TheIdentityCurveReturnsEveryLevel : (65535 : Nat) ≤ 65535 ∧ (7 : Nat) < 8 := by decide

theorem test_meets_ShapingStaysWithinRange :
    (let f : PointFields := { kind := .intensity, home := 0, curve := 7, master := some 3, offset := -4096, member := true };
      f.kind = .intensity ∧ f.master = some 3 ∧ f.member = true ∧ f.kind ≠ .source) ∧
      sourceFields.kind = .source ∧ sourceFields.master = none ∧ sourceFields.member = false ∧
      (State.reset.point 2559).fields.kind ≠ .source ∧
      ((State.reset.setPoint 2559 { Point.por 2559 with fields := sourceFields }).point 2559).fields.kind = .source ∧
      ({ State.reset with wltSample := true } : State).wltSample = true ∧
      ((65535 : Nat) ≤ 65535 ∧ squareLaw.getD 15 0 ≤ squareLaw.getD 16 0 ∧
        [65535, 0].getD 1 0 ≤ [65535, 0].getD 0 0 ∧ curveLevel [65535, 0] 4095 = 16) ∧
      (0 ≤ (4096 : Int) + -4096 ∧ (61440 : Int) + 4095 ≤ 65535) ∧ (4095 : Int) + -4096 < 0 ∧
      (65535 : Int) < 61441 + 4095 := by decide +kernel

/-- A member as a point meets it. -/
def cover (priority level remaining : Nat) (sequence : Word) : Cover :=
  { handle := ⟨0, 0⟩, priority, sequence, level, remaining, length := 65535 }

/-- A LIST contribution of two points in FADING_IN at half its fade, its words in block 0: levels 0 and 65535, targets 65535
and 0. -/
def listFade : Contribution :=
  { record .fadingIn 7 [0] with selector := ⟨0, 2558, 2, 0⟩, form := .list, elapsed := 1, fresh := false }

theorem test_meets_MergingKeepsLevelsAndNamesAWinner_effective :
    (let s := (heldAt191 listFade).setWords [0] 0 [0, 65535, 65535, 0];
      1 ≤ (s.group listFade.selector.group).stride ∧ s.positionOf listFade.selector 2559 = some 1 ∧
        listFade.phase = .fadingIn ∧ listFade.form = .list ∧ 1 ≤ listFade.fadeIn ∧
        (s.point 2559).fields.kind ≠ .source ∧ s.word [0] 0 ≤ s.target listFade 0 ∧
        s.target listFade 1 ≤ s.word [0] 1 ∧ (s.slot 191).record = some listFade ∧ (s.merge 2559).level = 32767) ∧
      (record .held 7 [0]).form = .spec (.level 9) ∧ (record .held 7 [0]).phase = .held ∧
      ((State.reset.setPoint 2559 { Point.por 2559 with fields := sourceFields }).point 2559).fields.kind = .source ∧
      (65535 : Int) < ((65535 : Nat) : Int) + (1 : Nat) * 1 ∧ ((0 : Nat) : Int) + (1 : Nat) * -1 < 0 ∧
      0 ≤ ((65535 : Nat) : Int) + (1 : Nat) * -65535 ∧ ((65535 : Nat) : Int) + (1 : Nat) * -65535 ≤ 65535 := by
  decide +kernel

theorem test_meets_MergingKeepsLevelsAndNamesAWinner :
    (∀ c ∈ [cover 15 65535 0 1, cover 0 0 0 2], c.level ≤ 65535) ∧
      (∀ c ∈ [cover 15 65535 65535 3], c.level ≤ 65535 ∧ 1 ≤ c.length ∧ c.remaining ≤ c.length) ∧
      topCover .intensity [cover 15 7 0 1, cover 15 65535 0 2] = some (cover 15 65535 0 2) ∧
      (∀ c ∈ [cover 15 7 0 2147483647, cover 15 7 0 0], (c.sequence - 0).toNat < 2147483648) ∧
      (∀ kind ∈ [Kind.intensity, .colour], topCover kind [cover 15 7 0 2147483647, cover 15 7 0 0] =
        some (cover 15 7 0 2147483647)) ∧
      ((∀ c ∈ [cover 8 5 0 0, cover 8 9 0 4294967295], (c.sequence - 4294967295).toNat < 2147483648) ∧
        topCover .colour [cover 8 5 0 0, cover 8 9 0 4294967295] = some (cover 8 5 0 0) ∧
        bySequence [cover 8 5 0 0, cover 8 9 0 4294967295] = [cover 8 9 0 4294967295, cover 8 5 0 0]) ∧
      ((cover 14 0 0 0).priority < (cover 15 0 0 0).priority ∧ (cover 15 0 0 0).priority = (cover 15 0 0 1).priority) ∧
      isBefore (cover 15 0 0 4294967295).sequence (cover 15 0 0 0).sequence = true ∧
      fadedLevel .colour none 65535 (cover 15 65535 65535 3) = 65535 ∧ fadedLevel .colour none 0 (cover 15 65535 1 3) ≠ 0 ∧
      (mergeCovers .colour 0 [] []).winner = none := by decide

theorem test_meets_FreezesHoldTheOutput :
    (let prev : Result := { merged := 0, output := 9, winner := none, frozen := true, held := 9 };
      prev.frozen = true ∧ (Result.por 0).frozen = false) ∧ Canonical smallState ∧ 0 < frozenGroup.freezeCount 127 :=
  ⟨⟨rfl, rfl⟩, test_canonical_small, by decide +kernel⟩

/-- A tile with dissolve length 2, dissolving or not. -/
def dissolving (frm : Option Nat) (elapsed : Nat) : Tile :=
  { Tile.por 0 with fields := { (Tile.por 0).fields with dissolve := 3 }, fromSource := frm, elapsed }

theorem test_meets_SourceChangesOnATileFollowTheTable :
    (Tile.por 0).fields.dissolve = 0 ∧ (dissolving none 0).fields.dissolve ≠ 0 ∧ (dissolving none 0).fromSource = none ∧
      (dissolving (some 4) 2).fields.dissolve ≤ 2 * (dissolving (some 4) 2).elapsed ∧
      2 * (dissolving (some 4) 1).elapsed < (dissolving (some 4) 1).fields.dissolve ∧
      (let s := State.reset.setTile 63 (dissolving (some 4) 1);
        (s.tile 63).fromSource ≠ none ∧ (s.tile 63).elapsed + 1 < (s.tile 63).fields.dissolve) ∧
      (let s := State.reset.setTile 63 (dissolving (some 4) 2);
        (s.tile 63).fields.dissolve ≤ (s.tile 63).elapsed + 1) := by decide +kernel

theorem test_meets_TicksAndFadesCountFrameStarts :
    (State.reset.source 4).reload = 0 ∧ (lostClient.source 4).state = .lost ∧
      (let x := ({ Source.por 4 with reload := 255, counter := 2 } : Source);
        x.reload ≠ 0 ∧ x.state = .live ∧ 2 ≤ x.counter) ∧
      ({ Source.por 4 with reload := 255, counter := 1 } : Source).counter = 1 ∧ (65534 : Nat) < 65535 ∧
      (let c := record .fadingIn 7 [0];
        ((heldAt191 c).slot 191).record = some c ∧ c.phase = .fadingIn ∧ c.fresh = true ∧ c.paused = false ∧
          c.elapsed = 0 ∧ 1 < c.fadeIn) ∧
      (let c := { record .fadingIn 7 [0] with paused := true, fresh := false };
        ((heldAt191 c).slot 191).record = some c ∧ c.paused = true ∧ c.fresh = false) := by decide +kernel

/-- The clauses of TicksAndFadesCountFrameStarts about one count, at the last count and at the one before it. -/
theorem test_meets_TicksAndFadesCountFrameStarts_counts :
    (State.reset.slot 191).record = none ∧
      (let c := { record .held 7 [0] with fresh := false };
        ((heldAt191 c).slot 191).record = some c ∧ c.fresh = false ∧ c.phase = .held) ∧
      (let c := { record .fadingIn 7 [0] with fresh := false };
        c.elapsed + 1 < c.fadeIn ∧ c.paused = false ∧ { c with elapsed := 1 }.fadeIn ≤ { c with elapsed := 1 }.elapsed + 1) ∧
      (let c := { record .fadingOut 0 [0] with fresh := false };
        c.phase = .fadingOut ∧ 2 ≤ { c with remaining := 2 }.remaining ∧ { c with remaining := 1 }.remaining ≤ 1) ∧
      (State.reset.master 3).state = .steady ∧
      (let x := (applyMasterSet State.reset 3 65535 2).master 3;
        x.state = .fading ∧ x.fresh = true ∧ x.elapsed + 1 < x.length ∧ { x with elapsed := 1 }.length ≤ 1 + 1) ∧
      ((State.reset.plate 7).state ≠ .playing ∧ { Plate.por 7 with state := .playing }.wasPlaying = false) ∧
      (let x := { Plate.por 7 with state := .playing, wasPlaying := true, hold := 2 };
        x.held + 1 < x.hold ∧ { x with held := 1 }.hold ≤ { x with held := 1 }.held + 1) ∧
      (State.reset.link 3).state ≠ .waking ∧
      (let x := { Link.por 3 with state := .waking, wakeDelay := 2 };
        x.wakeCount + 1 < x.wakeDelay ∧ { x with wakeCount := 1 }.wakeDelay ≤ { x with wakeCount := 1 }.wakeCount + 1) := by
  decide +kernel

/-- The clause of TicksAndFadesCountFrameStarts about the mark of the plates PLAYING before an application. -/
theorem test_meets_TicksAndFadesCountFrameStarts_marks :
    Canonical smallState ∧ ((onePlate .playing .loop).settle.plate 7).state = .playing :=
  ⟨test_canonical_small, by decide +kernel⟩

end Sys2Proof.Tests
end

section
/-! PROOF. A structured command frame that reaches its own checks: the row answers what `State.takeFrame` leaves, so
that a statement about a command turns on its own checks alone; and the refusal of the configuration commands from
sources 2 to 4. -/

namespace Sys2Proof

/-- Sources 2 to 4 configure nothing (11.7). -/
theorem Header.not_configures (h : Header) (hs : 2 ≤ h.src) : (!h.configures) = true := by
  have far : ¬ h.source.toNat ≤ 1 := Nat.not_le.2 hs
  simp [Header.configures, far]

/-- SAFETY and AUTOMATION configure (11.7). -/
theorem Header.configures_of_le (h : Header) (hs : h.src ≤ 1) : h.configures = true := decide_eq_true hs

end Sys2Proof

namespace Sys2Proof.Machine

/-- Every row with a header is the rise of CS# that takes its frame (R186). -/
theorem exec_of_header (i : Instr) (h : Header) (s : State) (hh : i.header? = some h) :
    exec i s = .next (s.takeFrame h i) := by
  cases i <;> cases hh <;> rfl

/-- An admitted command that awaits no frame work and that its own checks refuse. -/
theorem exec_refused (s : State) (h : Header) (i : Instr) (st : Status) (hh : i.header? = some h)
    (a : Admitted s h i) (hw : s.judged h i = s.met h) (ho : i.own (s.endTransaction h.time) (s.met h) = .refuse st) :
    exec i s = .next (s.refused h i st) := by
  rw [exec_of_header i h s hh, State.takeFrame_refused s h i st a hw ho]

/-- An admitted command that its own checks accept. -/
theorem exec_accepted (s t : State) (h : Header) (i : Instr) (c : Bool) (f : List Byte) (hh : i.header? = some h)
    (a : Admitted s h i) (ho : i.own (s.endTransaction h.time) (s.judged h i) = .accept t c f) :
    exec i s = .next (s.accepted h i t c f) := by
  rw [exec_of_header i h s hh, State.takeFrame_accepted s t h i c f a ho]

/-- The reload of a source leaves the latest time. -/
@[simp] theorem State.reloadSource_now (s : State) (n : Nat) : (s.reloadSource n).now = s.now := by
  rw [State.reloadSource_frame]

/-- The end of a transaction takes the later of the two times (log 6). -/
@[simp] theorem State.endTransaction_now (s : State) (t : Nat) : (s.endTransaction t).now = max s.now t := by
  rw [State.endTransaction_frame]

@[simp] theorem State.met_now (s : State) (h : Header) : (s.met h).now = max s.now h.time := by
  simp [State.met]

/-- Settles O12: each of the fifteen commands asks first of all whether its source configures, before it looks at its
body. -/
theorem configurationIsRefusedFromTheDesks : Obligations.ConfigurationIsRefusedFromTheDesks := by
  intro s h i hs a hi
  have hc := Header.not_configures h hs
  rcases hi with ⟨r, e, l, rfl⟩ | ⟨v, rfl⟩ | ⟨b, rfl⟩ | ⟨p, b, rfl⟩ | ⟨c, ks, rfl⟩ | ⟨b, rfl⟩ | ⟨b, rfl⟩ | ⟨n, rfl⟩ |
    ⟨v, rfl⟩ | ⟨l, e, c, r, rfl⟩ | ⟨n, e, rfl⟩ | ⟨b, rfl⟩ | ⟨b, rfl⟩ | ⟨l, w, d, rfl⟩ | ⟨l, x, p, rfl⟩ <;>
    exact exec_refused s h _ .notPermitted rfl a rfl (if_pos hc)

end Sys2Proof.Machine
end

section
/-! PROOF. Frame numbers in their wrapping order (R15) and the effective frame of a command (R82, R83). -/

namespace Sys2Proof.Machine

/-- The difference modulo 2^32, read as signed. -/
theorem signedDiff_eq (a b : Word) :
    signedDiff a b = if 2 * (a - b).toNat < 4294967296 then ((a - b).toNat : Int) else (a - b).toNat - 4294967296 :=
  BitVec.toInt_eq_toNat_cond _

theorem signedDiff_bounds (a b : Word) : -2147483648 ≤ signedDiff a b ∧ signedDiff a b ≤ 2147483647 := by
  have := (a - b).isLt
  rw [signedDiff_eq]
  split <;> omega

/-- The signed difference is the difference of the two numbers modulo 2^32. -/
theorem signedDiff_emod (a b : Word) : (signedDiff a b - ((a.toNat : Int) - b.toNat)) % 4294967296 = 0 := by
  have ha := a.isLt
  have hb := b.isLt
  rw [signedDiff_eq, BitVec.toNat_sub]
  split <;> omega

theorem signedDiff_eq_zero (a b : Word) : signedDiff a b = 0 ↔ a = b := by
  rw [signedDiff, ← BitVec.toInt_zero (w := 32), BitVec.toInt_inj]
  exact ⟨fun h => by bv_omega, fun h => by rw [h, BitVec.sub_self]⟩

theorem isBefore_iff (a b : Word) : isBefore a b = true ↔ signedDiff a b < 0 := decide_eq_true_iff

/-- A frame that is not before another is as many frames after it as the plain difference says. -/
theorem signedDiff_of_not_isBefore (a b : Word) (h : isBefore a b = false) : signedDiff a b = (a - b).toNat := by
  have hn : ¬ signedDiff a b < 0 := fun hlt => by simp [(isBefore_iff a b).2 hlt] at h
  have := (a - b).isLt
  rw [signedDiff_eq] at hn ⊢
  split at hn <;> omega

theorem effectiveFrame_plain (n : Word) (h : Header) (ha : h.mod? 2 = none) (hd : h.mod? 3 = none) :
    effectiveFrame n h = some (n + 1, false) := by
  rw [effectiveFrame, ha, hd]

theorem effectiveFrame_delay (n d : Word) (h : Header) (ha : h.mod? 2 = none) (hd : h.mod? 3 = some d) :
    effectiveFrame n h = if d.toNat ≤ 65535 then some (n + 1 + d, false) else none := by
  simp only [effectiveFrame, ha, hd]
  split
  · rw [if_neg (by omega)]
  · rw [if_pos (by omega)]

/-- An AT before the next frame is clamped to it. -/
theorem effectiveFrame_at_past (n f : Word) (h : Header) (ha : h.mod? 2 = some f) (hb : isBefore f (n + 1) = true) :
    effectiveFrame n h = some (n + 1, true) := by
  have hlt := (isBefore_iff _ _).1 hb
  simp only [effectiveFrame, ha]
  rw [if_neg (by omega), if_pos hlt]

/-- An AT from the next frame on is taken within 65535 frames and refused beyond. -/
theorem effectiveFrame_at (n f : Word) (h : Header) (ha : h.mod? 2 = some f) (hb : isBefore f (n + 1) = false) :
    effectiveFrame n h = if (f - (n + 1)).toNat ≤ 65535 then some (f, false) else none := by
  have hs := signedDiff_of_not_isBefore _ _ hb
  simp only [effectiveFrame, ha, hs]
  by_cases hle : (f - (n + 1)).toNat ≤ 65535
  · rw [if_neg (by omega), if_neg (by omega), if_pos hle]
  · rw [if_pos (by omega), if_neg hle]

/-- Settles O29, from the signed reading of the difference and one equation of `effectiveFrame` for each modifier. -/
theorem framesWrapAndFollowTheModifiers : Obligations.FramesWrapAndFollowTheModifiers := by
  refine ⟨fun n h => ⟨effectiveFrame_plain n h, fun d => effectiveFrame_delay n d h, fun f ha => ⟨?_, ?_, ?_⟩⟩, ?_⟩
  · exact effectiveFrame_at_past n f h ha
  · intro hb hle
    rw [effectiveFrame_at n f h ha hb, if_pos hle]
  · intro hb hgt
    rw [effectiveFrame_at n f h ha hb, if_neg (by omega)]
  · refine ⟨fun a b => ?_, fun n k => BitVec.toNat_add n k, by decide⟩
    obtain ⟨low, high⟩ := signedDiff_bounds a b
    exact ⟨low, high, signedDiff_emod a b, isBefore_iff a b, (signedDiff_eq_zero a b).symm, Int.lt_trichotomy _ _⟩

end Sys2Proof.Machine
end

section
/-! PROOF. A frame start (R14, R16, R45, R46, R84, R85, R178), in three parts: what it delivers and marks at once, the
supervision tick, and the first look at the cue lists with the counts that go on from it. -/

namespace Sys2Proof.Machine

/-! ### What is left of the last frame start -/

theorem State.settle_timer (s : State) : s.settle.timer = s.timer := (KeptRoom.settle s).timer

theorem State.settleRender_idle (s : State) (h : s.work.phase = .idle) : s.settleRender = s := by
  unfold State.settleRender
  rw [h]

theorem State.settleIdle_nil (s : State) (h : s.work.idleDue = []) : s.settleIdle = s := by
  have same : ({ s.work with idleDue := [] } : Work) = s.work := by rw [← h]
  rw [State.settleIdle, h, same]
  rfl

/-- Nothing outstanding, nothing to settle. -/
theorem State.settle_nothing (s : State) (hp : s.work.phase = .idle) (he : s.work.evaluation = none)
    (hi : s.work.idleDue = []) : s.settle = s := by
  rw [State.settle, State.settleRender_idle s hp, State.evaluateAll_none s _ he, State.settleIdle_nil s hi]

/-! ### The supervision tick of a frame start -/

/-- A source that a tick counts: supervised and LIVE (R46). -/
def Source.ticks (x : Source) : Bool := x.reload != 0 && x.state == .live

theorem Source.ticks_iff (x : Source) : x.ticks = true ↔ x.reload ≠ 0 ∧ x.state = .live := by
  simp [Source.ticks]

/-- The record a tick leaves: a counted source's counter falls by one, but from 1, which SOURCE_LOST takes (R46,
log 4). -/
def Source.ticked (x : Source) : Source :=
  if x.ticks = true ∧ x.counter ≠ 1 then { x with counter := x.counter - 1 } else x

/-- The tick would take the source's counter to 0. -/
def Source.tickEnds (x : Source) : Bool := x.ticks && x.counter == 1

/-- A tick on one source, in the terms above. -/
theorem State.tickSource_eq (s : State) (n : Nat) :
    s.tickSource n =
      if (s.source n).tickEnds then { s with work := { s.work with lossDue := s.work.lossDue ++ [n] } }
      else if (s.source n).ticks then s.setSource n (s.source n).ticked
      else s := by
  unfold State.tickSource
  by_cases ht : (s.source n).ticks = true
  · have hc := (Source.ticks_iff _).1 ht
    by_cases he : (s.source n).counter = 1
    · simp [hc, Source.tickEnds, ht, he]
    · simp [hc, Source.tickEnds, Source.ticked, ht, he]
  · have hc := mt (Source.ticks_iff _).2 ht
    simp only [Source.tickEnds, ht, Bool.false_and]
    exact if_neg hc

theorem State.source_tickSource (s : State) (n j : Nat) :
    (s.tickSource n).source j = if j = n then (s.source n).ticked else s.source j := by
  have keeps (h : (s.source n).ticked = s.source n) :
      s.source j = if j = n then (s.source n).ticked else s.source j := by
    split
    · rename_i hj
      rw [hj, h]
    · rfl
  rw [State.tickSource_eq]
  split
  · rename_i he
    exact keeps (by simp_all [Source.ticked, Source.tickEnds])
  · split
    · by_cases hj : j = n
      · rw [hj, State.source_setSource, if_pos rfl]
      · rw [State.source_setSource_other _ _ _ _ hj, if_neg hj]
    · rename_i ht
      exact keeps (by simp [Source.ticked, ht])

theorem State.lossDue_tickSource (s : State) (n : Nat) :
    (s.tickSource n).work.lossDue = s.work.lossDue ++ if (s.source n).tickEnds then [n] else [] := by
  rw [State.tickSource_eq]
  split
  · rfl
  · split <;> simp

/-- The tick of a frame start counts each of the five sources once, and leaves the losses outstanding. -/
theorem State.superviseAt_tick (s : State) (m : Word) (h : tickAt s.interval m = true) :
    (∀ n < 5, (s.superviseAt m).source n = (s.source n).ticked) ∧
      (s.superviseAt m).work.lossDue = s.work.lossDue ++ (List.range 5).filter fun n => (s.source n).tickEnds := by
  obtain ⟨each, due⟩ := State.each_counts State.source (fun s => s.work.lossDue) (fun _ => Source.ticked)
    (fun _ => Source.tickEnds) State.source_tickSource State.lossDue_tickSource s (List.range 5) List.nodup_range
  rw [State.superviseAt, if_pos h]
  exact ⟨fun n hn => by rw [each, if_pos (List.mem_range.2 hn)], due⟩

theorem State.superviseAt_quiet (s : State) (m : Word) (h : tickAt s.interval m = false) : s.superviseAt m = s := by
  simp [State.superviseAt, h]

/-! ### The look at the cue lists and the counts behind it -/

/-- Whether a head is due is a matter of the lists, the cues and the frame counter. -/
theorem State.headDue_congr {s t : State} (hl : t.lists = s.lists) (hc : t.cues = s.cues) (ht : t.timer = s.timer)
    (l : Nat) : t.headDue l = s.headDue l := by
  unfold State.headDue State.list State.cue
  rw [hl, hc, ht]

theorem Advanced.headDue {s t : State} (h : Advanced s t) (l : Nat) : t.headDue l = s.headDue l :=
  State.headDue_congr (by rw [h.frame]) (by rw [h.frame]) (by rw [h.frame]) l

theorem State.setEvaluation_headDue (s : State) (e : Option Evaluation) (l : Nat) :
    (s.setEvaluation e).headDue l = s.headDue l := rfl

/-- `t` is `s` after the tick, the look at the cue lists and the counts of a frame start of number `m`: what may differ,
and what the tick and the look leave in it. -/
structure Begun (m : Word) (s t : State) : Prop where
  frame : t = { s with
        sources := t.sources
        slots := t.slots
        masters := t.masters
        plates := t.plates
        tiles := t.tiles
        links := t.links
        inputs := t.inputs
        fetches := t.fetches
        wltSample := t.wltSample
        work := t.work }
  sources : t.sources = (s.superviseAt m).sources
  losses : t.work.lossDue = (s.superviseAt m).work.lossDue
  evaluation : t.work.evaluation = if t.headDue 0 then some ⟨0, 0⟩ else if t.headDue 1 then some ⟨1, 0⟩ else none

theorem Begun.queue {m : Word} {s t : State} (h : Begun m s t) : t.queue = s.queue := by
  rw [h.frame]

theorem Begun.source {m : Word} {s t : State} (h : Begun m s t) (n : Nat) :
    t.source n = (s.superviseAt m).source n := by
  unfold State.source
  rw [h.sources]

theorem Begun.of_start (m : Word) (s : State) (h : s.work.evaluation = some ⟨0, 0⟩) :
    Begun m s (s.superviseAt m).skipIdle.advance := by
  have tick := Ticked.superviseAt s m
  rw [State.skipIdle_start _ (tick.evaluation.trans h)]
  have count := Advanced.advance ((s.superviseAt m).setEvaluation
    (if (s.superviseAt m).headDue 0 then some ⟨0, 0⟩ else if (s.superviseAt m).headDue 1 then some ⟨1, 0⟩ else none))
  refine ⟨?_, ?_, count.losses, ?_⟩
  · rw [count.frame, State.setEvaluation, State.setWork, tick.frame]
  · rw [count.frame]
    rfl
  · rw [count.evaluation, count.headDue, count.headDue, State.setEvaluation_headDue, State.setEvaluation_headDue]
    rfl

/-! ### The frame start in its parts -/

/-- What a frame start issued at t makes of a settled state before its supervision tick: counter and flag delivered, the
fetches abandoned, the due set marked, and the cue evaluation at list A. -/
def State.openFrame (u : State) (t : Nat) : State :=
  let m := u.timer.nextFrame
  let s := u.setTimer { u.timer with counter := m, pendingFrame := none, lastFrameStart := t,
                                     timedFromRef := u.timer.timed }
  (s.abandonFetches.turnFrame.fixDueSet m).setWork { Work.none with phase := .applying, evaluation := some ⟨0, 0⟩ }

theorem State.openFrame_sources (u : State) (t : Nat) : (u.openFrame t).sources = u.sources := rfl
theorem State.openFrame_source (u : State) (t n : Nat) : (u.openFrame t).source n = u.source n := rfl
theorem State.openFrame_interval (u : State) (t : Nat) : (u.openFrame t).interval = u.interval := rfl
theorem State.openFrame_lossDue (u : State) (t : Nat) : (u.openFrame t).work.lossDue = [] := rfl
theorem State.openFrame_evaluation (u : State) (t : Nat) : (u.openFrame t).work.evaluation = some ⟨0, 0⟩ := rfl

/-- The due set of a frame start (R84, R85): the waiting entries, in their order, each marked by its own due test. -/
theorem State.openFrame_queue (u : State) (t : Nat) :
    (u.openFrame t).queue = u.queue.map fun e => { e with due := e.isDueAt u.timer.nextFrame } := rfl

theorem State.openFrame_frame (u : State) (t : Nat) :
    u.openFrame t =
      { u with
        timer := (u.openFrame t).timer, queue := (u.openFrame t).queue, plates := (u.openFrame t).plates
        tiles := (u.openFrame t).tiles, links := (u.openFrame t).links, fetches := (u.openFrame t).fetches
        work := (u.openFrame t).work } := rfl

theorem State.frameStart_openFrame (s : State) (t : Nat) :
    s.frameStart t = ((s.settle.openFrame t).superviseAt s.timer.nextFrame).skipIdle.advance := by
  rw [← State.settle_timer s]
  rfl

theorem State.frameStart_begun (s : State) (t : Nat) :
    Begun s.timer.nextFrame (s.settle.openFrame t) (s.frameStart t) := by
  rw [State.frameStart_openFrame]
  exact Begun.of_start _ _ (State.openFrame_evaluation _ t)

theorem Timer.timed_eq (x : Timer) : x.timed = (x.state == .locked || (x.state == .holdover && !x.expiryDue)) := by
  unfold Timer.timed
  cases x.state <;> rfl

theorem State.frameStart_queue (s : State) (t : Nat) :
    (s.frameStart t).queue = s.settle.queue.map fun e => { e with due := e.isDueAt s.timer.nextFrame } := by
  rw [(s.frameStart_begun t).queue, State.openFrame_queue, State.settle_timer]

/-- At a number that is no multiple of the interval the sources are as they were (R45). -/
theorem State.frameStart_quiet (s : State) (t : Nat) (h : tickAt s.settle.interval s.timer.nextFrame = false) :
    (s.frameStart t).sources = s.settle.sources ∧ (s.frameStart t).work.lossDue = [] := by
  have begun := s.frameStart_begun t
  rw [← State.openFrame_interval s.settle t] at h
  rw [begun.sources, begun.losses, State.superviseAt_quiet _ _ h]
  exact ⟨State.openFrame_sources _ t, State.openFrame_lossDue _ t⟩

/-- At a multiple each source is ticked once, and those whose counter would reach 0 are left to SOURCE_LOST (R46). -/
theorem State.frameStart_tick (s : State) (t n : Nat) (h : tickAt s.settle.interval s.timer.nextFrame = true)
    (hn : n < 5) :
    (s.frameStart t).source n = (s.settle.source n).ticked ∧
      (n ∈ (s.frameStart t).work.lossDue ↔ (s.settle.source n).tickEnds = true) := by
  have begun := s.frameStart_begun t
  rw [← State.openFrame_interval s.settle t] at h
  obtain ⟨each, due⟩ := State.superviseAt_tick _ _ h
  refine ⟨?_, ?_⟩
  · rw [begun.source, each n hn, State.openFrame_source]
  · rw [begun.losses, due, State.openFrame_lossDue]
    simp [hn, State.openFrame_source]

/-- Beside the items of its work, a frame start leaves everything as the settled state has it. -/
theorem State.frameStart_frame (s : State) (t : Nat) :
    s.frameStart t =
      { s.settle with
        timer := (s.frameStart t).timer, queue := (s.frameStart t).queue, sources := (s.frameStart t).sources
        slots := (s.frameStart t).slots, masters := (s.frameStart t).masters, plates := (s.frameStart t).plates
        tiles := (s.frameStart t).tiles, links := (s.frameStart t).links, inputs := (s.frameStart t).inputs
        fetches := (s.frameStart t).fetches, wltSample := (s.frameStart t).wltSample
        work := (s.frameStart t).work } := by
  have begun := (s.frameStart_begun t).frame
  generalize s.frameStart t = v at begun ⊢
  rw [begun, State.openFrame_frame]

/-- Settles O47: what is settled first, the due set, the tick and the look at the cue lists by the lemmas above; the
cases of a tick are those of `Source.ticked`. -/
theorem frameStartsBeginTheirWork : Obligations.FrameStartsBeginTheirWork := by
  refine ⟨State.settle_nothing, fun s t => ⟨?_, s.frameStart_queue t, s.frameStart_quiet t, fun h n hn => ?_,
    (s.frameStart_begun t).evaluation, s.frameStart_frame t⟩⟩
  · rw [State.frameStart_timer, Timer.timed_eq]
    rfl
  · obtain ⟨record, loss⟩ := s.frameStart_tick t n h hn
    rw [record, loss, Source.ticked, Source.tickEnds]
    refine ⟨fun hx => ?_, fun hr hl hc => ?_, fun hr hl hc => ?_⟩
    · have ht : (s.settle.source n).ticks = false := by
        rcases hx with hr | hl
        · simp [Source.ticks, hr]
        · simp [Source.ticks, hl]
      simp [ht]
    · have ht := (Source.ticks_iff _).2 ⟨hr, hl⟩
      simp [ht, hc]
    · have ht := (Source.ticks_iff _).2 ⟨hr, hl⟩
      simp [ht, hc]

end Sys2Proof.Machine
end

section
/-! PROOF. The Frame Timer (R3 to R13): what each of its rows does in each of its states, and the rows and commands that
move it. -/

namespace Sys2Proof.Machine

/-! ### Rows of a running part, and the frame start they issue -/

theorem exec_refPulse (s : State) (t : Nat) (hr : s.device = .running) : exec (.refPulse t) s = .next (s.refPulse t) :=
  congrArg Host.Outcome.next (if_pos hr)

theorem exec_lossDeadline (s : State) (hr : s.device = .running) : exec .lossDeadline s = .next s.lossExpiry :=
  congrArg Host.Outcome.next (if_pos hr)

theorem exec_localTimerExpiry (s : State) (hr : s.device = .running) : exec .localTimerExpiry s = .next s.localExpiry :=
  congrArg Host.Outcome.next (if_pos hr)

theorem exec_holdoverEnd (s : State) (hr : s.device = .running) : exec .holdoverEnd s = .next s.expireHoldover :=
  congrArg Host.Outcome.next (if_pos hr)

/-- A row that ends in a frame start, with the timer that it leaves (R14, R16). -/
theorem frameStart_of_exec {i : Instr} {s w : State} {t : Nat} {flag : Bool} (h : exec i s = .next (w.frameStart t))
    (hf : w.timer.timed = flag) :
    ∃ v, exec i s = .next v ∧ v = w.frameStart t ∧
      v.timer = { w.timer with lastFrameStart := t, counter := w.timer.nextFrame, pendingFrame := none,
                               timedFromRef := flag } :=
  ⟨_, h, rfl, by rw [State.frameStart_timer, hf]⟩

/-! ### FREE_RUN (R3) -/

/-- The next frame start's instant has not passed: it is left to the local timer (log 7). -/
theorem State.enterFreeRun_waits (s : State) (h : s.now ≤ s.timer.lastFrameStart + s.timer.nominal) :
    s.enterFreeRun = s.setTimer s.timer.freeRun := if_neg (Nat.not_lt.2 h)

/-- The next frame start's instant has passed: it is issued at once (log 7). -/
theorem State.enterFreeRun_starts (s : State) (h : s.timer.lastFrameStart + s.timer.nominal < s.now) :
    s.enterFreeRun = (s.setTimer s.timer.freeRun).frameStart s.now := if_pos h

/-- A row that enters FREE_RUN, by whether the next frame start's instant has passed. -/
theorem freeRun_of_exec {i : Instr} {s u : State} {t n : Nat} (h : exec i s = .next u.enterFreeRun) (ht : u.now = t)
    (hn : u.timer.lastFrameStart + u.timer.nominal = n) :
    (t ≤ n → exec i s = .next (u.setTimer u.timer.freeRun)) ∧
      (n < t → ∃ v, exec i s = .next v ∧ v = (u.setTimer u.timer.freeRun).frameStart t ∧
        v.timer = { u.timer.freeRun with lastFrameStart := t, counter := u.timer.nextFrame, pendingFrame := none,
                                         timedFromRef := false }) := by
  subst ht hn
  refine ⟨fun hle => ?_, fun hlt => ?_⟩
  · rw [h, State.enterFreeRun_waits u hle]
  · rw [State.enterFreeRun_starts u hlt] at h
    exact frameStart_of_exec h rfl

/-! ### Holdover's end (R11) -/

theorem State.expireHoldover_none (s : State) (h : s.timer.expiryDue = false) : s.expireHoldover = s := by
  simp [State.expireHoldover, h]

theorem State.expireHoldover_holdover (s : State) (h : s.timer.expiryDue = true) (hs : s.timer.state = .holdover) :
    s.expireHoldover = ((s.setTimer { s.timer with timedFromRef := false }).raise .holdoverEnd).enterFreeRun := by
  simp [State.expireHoldover, h, hs]

theorem State.expireHoldover_acquiring (s : State) (h : s.timer.expiryDue = true) (hs : s.timer.state = .acquiring) :
    s.expireHoldover =
      (s.setTimer { s.timer with cameFrom := .freeRun, heldPeriod := s.timer.nominal, localPeriod := s.timer.nominal,
                                 expiryDue := false }).raise .holdoverEnd := by
  simp [State.expireHoldover, h, hs]

theorem State.enterFreeRun_expiryDue (s : State) : s.enterFreeRun.timer.expiryDue = false := by
  by_cases h : s.timer.lastFrameStart + s.timer.nominal < s.now
  · rw [State.enterFreeRun_starts s h, State.frameStart_timer]
    rfl
  · rw [State.enterFreeRun_waits s (Nat.not_lt.1 h)]
    rfl

/-- The expiry is taken once (R11). -/
theorem State.expireHoldover_expiryDue (s : State) : s.expireHoldover.timer.expiryDue = false := by
  by_cases h : s.timer.expiryDue = true
  · unfold State.expireHoldover
    rw [h]
    cases s.timer.state with
    | holdover => exact State.enterFreeRun_expiryDue _
    | acquiring => rfl
    | freeRun => rfl
    | locked => rfl
  · rw [Bool.not_eq_true] at h
    rw [State.expireHoldover_none s h, h]

theorem State.expireHoldover_twice (s : State) : s.expireHoldover.expireHoldover = s.expireHoldover :=
  State.expireHoldover_none _ s.expireHoldover_expiryDue

/-! ### REF pulses (R4 to R9, R12) -/

section
variable (s : State) (t : Nat)

theorem State.refPulse_disabled (ht : s.now ≤ t) (he : s.timer.refEnable = false) :
    s.refPulse t = { s with now := t } := by
  simp [State.refPulse, Nat.max_eq_right ht, he]

theorem State.refPulse_freeRun (ht : s.now ≤ t) (he : s.timer.refEnable = true) (hs : s.timer.state = .freeRun) :
    s.refPulse t = { s with now := t }.setTimer (s.timer.startAcquiring .freeRun t) := by
  simp [State.refPulse, Nat.max_eq_right ht, he, hs]

theorem State.refPulse_holdover (ht : s.now ≤ t) (he : s.timer.refEnable = true) (hs : s.timer.state = .holdover) :
    s.refPulse t = { s with now := t }.setTimer (s.timer.startAcquiring .holdover t) := by
  simp [State.refPulse, Nat.max_eq_right ht, he, hs]

theorem State.refPulse_acquiring (he : s.timer.refEnable = true) (hs : s.timer.state = .acquiring) :
    s.refPulse t = { s with now := max s.now t }.expireHoldover.acquirePulse (max s.now t) := by
  simp [State.refPulse, he, hs]

theorem State.refPulse_locked (ht : s.now ≤ t) (he : s.timer.refEnable = true) (hs : s.timer.state = .locked) :
    s.refPulse t = { s with now := t }.lockedPulse t := by
  simp [State.refPulse, Nat.max_eq_right ht, he, hs]

/-- A good interval short of the eighth (R5). -/
theorem State.acquirePulse_good (hg : (s.timer.interval t).any (goodInterval s.timer.nominal) = true)
    (hc : s.timer.acquireCount < 7) :
    s.acquirePulse t =
      s.setTimer { s.timer with lastInterval := s.timer.interval t, lastPulse := some t,
                                acquireCount := s.timer.acquireCount + 1 } := by
  have short : s.timer.acquireCount + 1 < 8 := by omega
  simp [State.acquirePulse, hg, short]

theorem State.acquirePulse_bad (hg : (s.timer.interval t).any (goodInterval s.timer.nominal) = false) :
    s.acquirePulse t =
      s.setTimer { s.timer with lastInterval := s.timer.interval t, lastPulse := some t, acquireCount := 0 } := by
  simp [State.acquirePulse, hg]

/-- The eighth good interval in a row (R6). -/
theorem State.acquirePulse_align (d : Nat) (hi : s.timer.interval t = some d)
    (hg : goodInterval s.timer.nominal d = true) (hc : 7 ≤ s.timer.acquireCount)
    (hr : s.timer.lastFrameStart + s.timer.nominal / 4 ≤ t) :
    s.acquirePulse t = ((s.setTimer (s.timer.align d t)).raise .refLocked).frameStart t := by
  have eighth : ¬ s.timer.acquireCount + 1 < 8 := by omega
  simp [State.acquirePulse, hi, hg, eighth, isRunt, Nat.not_lt.2 hr]

/-- The alignment of a pulse that would make the running frame a runt (R6). -/
theorem State.acquirePulse_runt (d : Nat) (hi : s.timer.interval t = some d)
    (hg : goodInterval s.timer.nominal d = true) (hc : 7 ≤ s.timer.acquireCount)
    (hr : t < s.timer.lastFrameStart + s.timer.nominal / 4) :
    s.acquirePulse t = (s.setTimer (s.timer.align d t)).raise .refLocked := by
  have eighth : ¬ s.timer.acquireCount + 1 < 8 := by omega
  simp [State.acquirePulse, hi, hg, eighth, isRunt, hr]

theorem State.lockedPulse_glitch (hg : isGlitch s.timer.nominal s.timer.lastFrameStart t = true) :
    s.lockedPulse t = s.raise .refGlitch := by
  simp [State.lockedPulse, hg]

theorem State.lockedPulse_good (d : Nat) (hn : isGlitch s.timer.nominal s.timer.lastFrameStart t = false)
    (hi : s.timer.interval t = some d) (hg : goodInterval s.timer.nominal d = true) :
    s.lockedPulse t =
      (s.setTimer { s.timer with heldPeriod := d, lastInterval := some d, lastPulse := some t,
                                 badRun := 0 }).frameStart t := by
  simp [State.lockedPulse, hn, hi, hg]

theorem State.lockedPulse_bad (hn : isGlitch s.timer.nominal s.timer.lastFrameStart t = false)
    (hg : (s.timer.interval t).any (goodInterval s.timer.nominal) = false) (hb : s.timer.badRun < 3) :
    s.lockedPulse t =
      (s.setTimer { s.timer with lastInterval := s.timer.interval t, lastPulse := some t,
                                 badRun := s.timer.badRun + 1 }).frameStart t := by
  have short : s.timer.badRun + 1 < 4 := by omega
  simp [State.lockedPulse, hn, hg, short]

/-- The fourth bad pulse in a row (R9). -/
theorem State.lockedPulse_drift (hn : isGlitch s.timer.nominal s.timer.lastFrameStart t = false)
    (hg : (s.timer.interval t).any (goodInterval s.timer.nominal) = false) (hb : 3 ≤ s.timer.badRun) :
    s.lockedPulse t =
      ((s.setTimer ({ s.timer with lastInterval := s.timer.interval t, lastPulse := some t }).drift).raise
        .refLost).frameStart t := by
  have fourth : ¬ s.timer.badRun + 1 < 4 := by omega
  simp [State.lockedPulse, hn, hg, fourth]

end

/-- A drift with a holdover limit leaves for ACQUIRING from HOLDOVER at the held period (R9). -/
theorem Timer.drift_holdover (x : Timer) (i p : Option Nat) (h : x.holdoverLimit ≠ 0) :
    ({ x with lastInterval := i, lastPulse := p } : Timer).drift =
      { x with state := .acquiring, cameFrom := .holdover, unlockCause := .drift, acquireCount := 0, badRun := 0,
               holdoverCount := 0, localPeriod := x.heldPeriod, lastInterval := i, lastPulse := p } := if_neg h

/-- A drift without one leaves for ACQUIRING from FREE_RUN at the nominal period (R9). -/
theorem Timer.drift_freeRun (x : Timer) (i p : Option Nat) (h : x.holdoverLimit = 0) :
    ({ x with lastInterval := i, lastPulse := p } : Timer).drift =
      { x with state := .acquiring, cameFrom := .freeRun, unlockCause := .drift, acquireCount := 0, badRun := 0,
               heldPeriod := x.nominal, localPeriod := x.nominal, lastInterval := i, lastPulse := p } := if_pos h

/-- Settles O45, by the timer's state and then by the test that the pulse meets. -/
theorem referencePulsesComplete : Obligations.ReferencePulsesComplete := by
  intro s t hr ht x i starts
  have row := exec_refPulse s t hr
  refine ⟨fun he => ?_, fun he => ⟨fun hs => ?_, fun hs => ?_, fun hs hd => ?_, fun hs => ?_⟩⟩
  · rw [row, s.refPulse_disabled t ht he]
  · rw [row, s.refPulse_freeRun t ht he hs]
    rfl
  · rw [row, s.refPulse_holdover t ht he hs]
    rfl
  · rw [s.refPulse_acquiring t he hs, Nat.max_eq_right ht, State.expireHoldover_none { s with now := t } hd] at row
    refine ⟨fun hg hc => ?_, fun hg => ?_, fun d hi hg hc => ?_⟩
    · rw [row, State.acquirePulse_good { s with now := t } t hg hc]
      rfl
    · rw [row, State.acquirePulse_bad { s with now := t } t hg]
      rfl
    · refine ⟨fun late => ?_, fun runt => ?_⟩
      · rw [State.acquirePulse_align { s with now := t } t d hi hg hc late] at row
        exact frameStart_of_exec row rfl
      · rw [row, State.acquirePulse_runt { s with now := t } t d hi hg hc runt]
        rfl
  · rw [s.refPulse_locked t ht he hs] at row
    refine ⟨fun early => ?_, fun late => ?_⟩
    · rw [row, State.lockedPulse_glitch { s with now := t } t (decide_eq_true early)]
    · have hn : isGlitch s.timer.nominal s.timer.lastFrameStart t = false := decide_eq_false (Nat.not_lt.2 late)
      have locked : ∀ {y : Timer}, y.state = .locked → y.timed = true := fun hy => by simp [Timer.timed, hy]
      refine ⟨fun d hi hg => ?_, fun hg hb => ?_, fun hg hb hl => ?_, fun hg hb hl => ?_⟩
      · rw [State.lockedPulse_good { s with now := t } t d hn hi hg] at row
        exact frameStart_of_exec row (locked hs)
      · rw [State.lockedPulse_bad { s with now := t } t hn hg hb] at row
        exact frameStart_of_exec row (locked hs)
      · rw [State.lockedPulse_drift { s with now := t } t hn hg hb, Timer.drift_holdover s.timer _ _ hl] at row
        exact frameStart_of_exec row rfl
      · rw [State.lockedPulse_drift { s with now := t } t hn hg hb, Timer.drift_freeRun s.timer _ _ hl] at row
        exact frameStart_of_exec row rfl

end Sys2Proof.Machine
end

section
/-! PROOF. The Frame Timer's deadlines (R3, R7, R10, R11): the loss deadline, the local timer's expiry, and the end of
holdover. -/

namespace Sys2Proof.Machine

/-! ### The loss deadline (R7, R10) -/

section
variable (s : State) (hd : s.timer.expiryDue = false)
include hd

theorem State.lossExpiry_no_pulse (hp : s.timer.lastPulse = none) : s.lossExpiry = s := by
  simp [State.lossExpiry, s.expireHoldover_none hd, hp]

/-- The deadline is kept in ACQUIRING and LOCKED alone (R2). -/
theorem State.lossExpiry_unwatched (hs : s.timer.state = .freeRun ∨ s.timer.state = .holdover) : s.lossExpiry = s := by
  cases hp : s.timer.lastPulse with
  | none => exact s.lossExpiry_no_pulse hd hp
  | some p => rcases hs with hs | hs <;> simp [State.lossExpiry, s.expireHoldover_none hd, hp, hs]

variable (p : Nat) (hp : s.timer.lastPulse = some p)
include hp

theorem State.lossExpiry_acquiring (hs : s.timer.state = .acquiring) :
    s.lossExpiry = { s with now := max s.now (lossDeadlineAt s.timer.nominal p) }.loseAcquisition := by
  simp [State.lossExpiry, s.expireHoldover_none hd, hp, hs]

theorem State.lossExpiry_locked (hs : s.timer.state = .locked) :
    s.lossExpiry =
      { s with now := max s.now (lossDeadlineAt s.timer.nominal p) }.loseLock
        (max s.now (lossDeadlineAt s.timer.nominal p)) := by
  simp [State.lossExpiry, s.expireHoldover_none hd, hp, hs]

end

theorem State.loseAcquisition_freeRun (s : State) (h : s.timer.cameFrom = .freeRun) :
    s.loseAcquisition = s.enterFreeRun := by
  simp [State.loseAcquisition, h]

theorem State.loseAcquisition_holdover (s : State) (h : s.timer.cameFrom = .holdover) :
    s.loseAcquisition = s.setTimer { s.timer with state := .holdover, acquireCount := 0, lastPulse := none } := by
  simp [State.loseAcquisition, h]

/-- The loss of a lock is recorded first (R10). -/
def State.lockLost (s : State) : State := (s.setTimer { s.timer with unlockCause := .loss }).raise .refLost

theorem State.loseLock_freeRun (s : State) (t : Nat) (h : s.timer.holdoverLimit = 0) :
    s.loseLock t = s.lockLost.enterFreeRun := if_pos h

theorem State.loseLock_holdover (s : State) (t : Nat) (h : s.timer.holdoverLimit ≠ 0) :
    s.loseLock t =
      (s.lockLost.setTimer { s.timer with state := .holdover, unlockCause := .loss, holdoverCount := 0,
                                          localPeriod := s.timer.heldPeriod, lastPulse := none,
                                          badRun := 0 }).frameStart t := if_neg h

/-! ### The local timer (R3, R11) -/

theorem Timer.countsHoldover_iff (x : Timer) :
    x.countsHoldover = true ↔ x.state = .holdover ∨ (x.state = .acquiring ∧ x.cameFrom = .holdover) := by
  simp [Timer.countsHoldover]

theorem saturate_eq_min (limit n : Nat) : saturate limit n = min limit (n + 1) := by
  unfold saturate
  split <;> omega

theorem Timer.countHoldover_of_not (x : Timer) (h : x.countsHoldover = false) : x.countHoldover = x := by
  simp [Timer.countHoldover, h]

/-- The holdover count rises to at most 65535, and a count at the limit leaves the expiry outstanding (R11). -/
theorem Timer.countHoldover_of_counts (x : Timer) (h : x.countsHoldover = true) :
    x.countHoldover =
      { x with holdoverCount := min 65535 (x.holdoverCount + 1)
               expiryDue := decide (x.holdoverLimit = 0 ∨ x.holdoverLimit ≤ min 65535 (x.holdoverCount + 1)) } := by
  simp [Timer.countHoldover, h, saturate_eq_min, Bool.decide_or]
  rfl

theorem State.localExpiry_locked (s : State) (hd : s.timer.expiryDue = false) (hs : s.timer.state = .locked) :
    s.localExpiry = s := by
  simp [State.localExpiry, s.expireHoldover_none hd, hs]

/-- One local period after the last frame start, at the latest time seen (R3, log 6). -/
def State.localInstant (s : State) : Nat := max s.now (s.timer.lastFrameStart + s.timer.localPeriod)

theorem State.localExpiry_starts (s : State) (hd : s.timer.expiryDue = false) (hs : s.timer.state ≠ .locked) :
    s.localExpiry =
      ({ s with now := s.localInstant }.setTimer s.timer.countHoldover).frameStart s.localInstant := by
  simp [State.localExpiry, s.expireHoldover_none hd, hs, State.localInstant]

/-- The flag of a frame start in HOLDOVER, and its absence in FREE_RUN and ACQUIRING (R16). -/
theorem Timer.timed_holdover (x : Timer) (h : x.state = .holdover) : x.timed = !x.expiryDue := by
  simp [Timer.timed, h]

theorem Timer.timed_untimed (x : Timer) (h : x.state = .freeRun ∨ x.state = .acquiring) : x.timed = false := by
  rcases h with h | h <;> simp [Timer.timed, h]

/-- While holdover counting runs, the flag is true in HOLDOVER short of the limit alone (R11, R16). -/
theorem Timer.timed_counting (x : Timer) (n : Nat) (due : Bool) (h : x.countsHoldover = true) :
    ({ x with holdoverCount := n, expiryDue := due } : Timer).timed = (x.state == .holdover && !due) := by
  rcases x.countsHoldover_iff.1 h with hs | ⟨hs, _⟩ <;> simp [Timer.timed, hs]

/-! ### An outstanding expiry is taken first -/

theorem State.lossExpiry_expireHoldover (s : State) : s.expireHoldover.lossExpiry = s.lossExpiry := by
  rw [State.lossExpiry, State.expireHoldover_twice, State.lossExpiry]

theorem State.localExpiry_expireHoldover (s : State) : s.expireHoldover.localExpiry = s.localExpiry := by
  rw [State.localExpiry, State.expireHoldover_twice, State.localExpiry]

/-- In ACQUIRING the expiry issues no frame start, so the latest time may be set before it or behind it. -/
theorem State.expireHoldover_acquiring_now (s : State) (n : Nat) (hd : s.timer.expiryDue = true)
    (hs : s.timer.state = .acquiring) : { s with now := n }.expireHoldover = { s.expireHoldover with now := n } := by
  rw [State.expireHoldover_acquiring { s with now := n } hd hs, s.expireHoldover_acquiring hd hs]
  rfl

theorem State.refPulse_expireHoldover (s : State) (t : Nat) (hd : s.timer.expiryDue = true)
    (hs : s.timer.state = .acquiring) (he : s.timer.refEnable = true) : s.expireHoldover.refPulse t = s.refPulse t := by
  have taken := s.expireHoldover_acquiring hd hs
  have he' : s.expireHoldover.timer.refEnable = true := by rw [taken]; exact he
  have hs' : s.expireHoldover.timer.state = .acquiring := by rw [taken]; exact hs
  have hn' : s.expireHoldover.now = s.now := by rw [taken]; rfl
  rw [State.refPulse_acquiring _ t he' hs', hn',
    State.expireHoldover_none { s.expireHoldover with now := max s.now t } s.expireHoldover_expiryDue,
    s.refPulse_acquiring t he hs, s.expireHoldover_acquiring_now (max s.now t) hd hs]

/-- Settles O46: with no expiry outstanding each row by the timer's state; with one, HOLDOVER_END takes it and the other
rows begin with it. -/
theorem timerExpiriesComplete : Obligations.TimerExpiriesComplete := by
  intro s hr x n next free starts freed
  have loss := exec_lossDeadline s hr
  have expiry := exec_localTimerExpiry s hr
  have ends := exec_holdoverEnd s hr
  refine ⟨fun hd => ⟨fun p hp => ⟨fun hs hl => ?_, fun hs hl => ?_, fun hs hc => ?_, fun hs hc => ?_⟩, fun hx => ?_,
    fun hs => ?_, fun hx => ?_, fun hx => ?_, ?_⟩, fun hd => ⟨fun hs => ?_, fun hs => ?_, fun u hu => ?_⟩⟩
  · rw [s.lossExpiry_locked hd p hp hs, State.loseLock_holdover _ _ (by exact hl)] at loss
    exact frameStart_of_exec loss ((Timer.timed_holdover _ rfl).trans (congrArg (!·) hd))
  · rw [s.lossExpiry_locked hd p hp hs, State.loseLock_freeRun _ _ (by exact hl)] at loss
    exact freeRun_of_exec loss rfl rfl
  · rw [loss, s.lossExpiry_acquiring hd p hp hs, State.loseAcquisition_holdover _ (by exact hc)]
    rfl
  · rw [s.lossExpiry_acquiring hd p hp hs, State.loseAcquisition_freeRun _ (by exact hc)] at loss
    exact freeRun_of_exec loss rfl rfl
  · rcases hx with hs | hs | hp
    · rw [loss, s.lossExpiry_unwatched hd (.inl hs)]
    · rw [loss, s.lossExpiry_unwatched hd (.inr hs)]
    · rw [loss, s.lossExpiry_no_pulse hd hp]
  · rw [expiry, s.localExpiry_locked hd hs]
  · have uncounted : s.timer.countsHoldover = false := by
      rcases hx with hs | ⟨hs, hc⟩ <;> simp_all [Timer.countsHoldover, x]
    have unlocked : s.timer.state ≠ .locked := by
      rcases hx with hs | ⟨hs, hc⟩ <;> simp_all [x]
    rw [s.localExpiry_starts hd unlocked, Timer.countHoldover_of_not _ uncounted] at expiry
    exact frameStart_of_exec expiry (Timer.timed_untimed _ (hx.imp id And.left))
  · have unlocked : s.timer.state ≠ .locked := by
      rcases hx with hs | ⟨hs, hc⟩ <;> simp_all [x]
    have counts := s.timer.countsHoldover_iff.2 hx
    rw [s.localExpiry_starts hd unlocked, s.timer.countHoldover_of_counts counts] at expiry
    exact frameStart_of_exec expiry (s.timer.timed_counting _ _ counts)
  · rw [ends, s.expireHoldover_none hd]
  · rw [s.expireHoldover_holdover hd hs] at ends
    exact freeRun_of_exec ends rfl rfl
  · rw [ends, s.expireHoldover_acquiring hd hs]
    rfl
  · obtain rfl : s.expireHoldover = u := Host.Outcome.next.inj (ends.symm.trans hu)
    have hr' : s.expireHoldover.device = .running := (KeptTimed.expireHoldover s).device.trans hr
    refine ⟨?_, ?_, fun hs he t => ?_⟩
    · rw [loss, exec_lossDeadline _ hr', State.lossExpiry_expireHoldover]
    · rw [expiry, exec_localTimerExpiry _ hr', State.localExpiry_expireHoldover]
    · rw [exec_refPulse s t hr, exec_refPulse _ t hr', s.refPulse_expireHoldover t hd hs he]

end Sys2Proof.Machine
end

section
/-! PROOF. The commands of studio time (R13, R14, R18). -/

namespace Sys2Proof.Machine

/-- SET_TIMING that keeps the rate and does not switch the reference off stores its three fields (R13). -/
theorem State.applyTiming_kept (s : State) (rate limit : Nat) (on : Bool) (hd : s.timer.expiryDue = false)
    (hr : rate = s.timer.rate) (he : s.timer.refEnable = true → on = true) :
    s.applyTiming rate on limit =
      s.setTimer { s.timer with rate := rate, refEnable := on, holdoverLimit := limit } := by
  have kept : ¬ (rate ≠ s.timer.rate ∨ (s.timer.refEnable = true ∧ on = false)) := by
    rintro (h | ⟨h, hoff⟩)
    · exact h hr
    · simp [he h] at hoff
  rw [State.applyTiming, s.expireHoldover_none hd]
  exact if_neg kept

/-- Any other SET_TIMING enters FREE_RUN, with the unlock cause COMMAND where the timer was LOCKED (R13). -/
theorem State.applyTiming_freeRun (s : State) (rate limit : Nat) (on : Bool) (hd : s.timer.expiryDue = false)
    (hn : rate ≠ s.timer.rate ∨ (s.timer.refEnable = true ∧ on = false)) :
    s.applyTiming rate on limit =
      (s.setTimer { s.timer with
        rate := rate, refEnable := on, holdoverLimit := limit
        unlockCause := if s.timer.state = .locked then .command else s.timer.unlockCause }).enterFreeRun := by
  rw [State.applyTiming, s.expireHoldover_none hd]
  exact if_pos hn

theorem setTimingOwn_accepts (h : Header) (r e : Byte) (l : Half) (on : Bool) (s : State) (hs : h.src ≤ 1)
    (hr : r.toNat ≤ 6) (he : onOff e = some on) :
    setTimingOwn h r e l s = .accept (s.applyTiming r.toNat on l.toNat) false [] := by
  simp [setTimingOwn, h.configures_of_le hs, he, Nat.not_lt.2 hr]

theorem setFrameOwn_accepts (h : Header) (v : Word) (s : State) (hs : h.src ≤ 1) :
    setFrameOwn h v s =
      .accept (s.setTimer { s.timer with pendingFrame := some v }) false (be32 s.timer.counter) := by
  simp [setFrameOwn, h.configures_of_le hs]

/-- An admitted SET_TIMING in range, from a source that configures. -/
theorem exec_setTiming (s : State) (h : Header) (r e : Byte) (l : Half) (on : Bool)
    (a : Admitted s h (.setTiming h r e l)) (hs : h.src ≤ 1) (hr : r.toNat ≤ 6) (he : onOff e = some on) :
    exec (.setTiming h r e l) s = .next (s.accepted h (.setTiming h r e l)
      ((s.met h).applyTiming r.toNat on l.toNat) false []) :=
  exec_accepted s _ h _ false [] rfl a (setTimingOwn_accepts h r e l on (s.met h) hs hr he)

/-- Settles O18: the two commands that leave FREE_RUN alone, and SET_TIMING by whether it enters FREE_RUN. -/
theorem studioTimeCommandsComplete : Obligations.StudioTimeCommandsComplete := by
  refine ⟨fun s h => ⟨fun v a hs => ?_, fun a => exec_accepted s _ h _ false _ rfl a rfl⟩, ?_⟩
  · have own := setFrameOwn_accepts h v (s.met h) hs
    rw [State.met_timer] at own
    exact exec_accepted s _ h _ false _ rfl a own
  · intro s h r e l on a hs hr he hd
    have hd' : (s.met h).timer.expiryDue = false := by rw [State.met_timer, hd]
    have row := exec_setTiming s h r e l on a hs hr he
    refine ⟨fun hk hon => ?_, fun hn => ?_⟩
    · rw [State.applyTiming_kept _ _ _ _ hd' (by rwa [State.met_timer]) (by rwa [State.met_timer])] at row
      rwa [State.met_timer] at row
    · rw [State.applyTiming_freeRun _ _ _ _ hd' (by rwa [State.met_timer]), State.met_timer] at row
      refine ⟨fun waits => ?_, fun passed => ?_⟩
      · rw [row, State.enterFreeRun_waits _ (by rw [State.setTimer_now, State.met_now]; exact waits)]
        rfl
      · rw [row, State.enterFreeRun_starts _ (by rw [State.setTimer_now, State.met_now]; exact passed),
          State.setTimer_now, State.met_now]
        rfl

end Sys2Proof.Machine
end

section
/-! PROOF. The link and the reset (R185, R186, R193, R194), and what the part holds right after reset. -/

namespace Sys2Proof.Machine

theorem exec_transactionBegin (s : State) (hd : s.device ≠ .resetLow) (ht : s.transaction = false) :
    exec .transactionBegin s = .next { s with outgoing := s.reply, reply := [], transaction := true } := by
  have idle : ¬ (s.device = .resetLow ∨ s.transaction = true) := by simp [hd, ht]
  exact congrArg Host.Outcome.next (if_neg idle)

section
variable (s : State) (time : Nat) (bytes : List Byte) (hd : s.device = .running) (hc : s.softClear = .none)
include hd hc

/-- The end of a transaction leaves a part that is not BUSY so. -/
theorem State.endTransaction_busy : (s.endTransaction time).busy = false := by
  simp [State.busy, hd, hc]

/-- A whole frame whose code is not in the command summary: the reload, and UNKNOWN_COMMAND (R186, check 5). -/
theorem State.takeBytes_unknown (f : RawFrame) (hf : splitFrame bytes = some f) (hs : f.source.toNat ≤ 4)
    (hn : f.code ∉ commandCodes) :
    s.takeBytes time bytes =
      State.resume (s.endTransaction time)
        ((s.met ⟨time, f.source, f.mods⟩).replyWith f.code .unknownCommand false []) := by
  have known : ¬ (Header.src ⟨time, f.source, f.mods⟩ > 4) := Nat.not_lt.2 hs
  have unlisted : commandCodes.contains f.code = false := by simpa using hn
  have judged : (s.endTransaction time).judgeRaw f time =
      (s.met ⟨time, f.source, f.mods⟩).replyWith f.code .unknownCommand false [] := by
    simp only [State.judgeRaw, s.endTransaction_busy time hd hc, unlisted]
    simp [known, State.met]
  simp [State.takeBytes, hd, hf, judged]

/-- Bytes that form no frame: BAD_LENGTH under the first byte (R186, check 2; R188). -/
theorem State.takeBytes_bad (hf : splitFrame bytes = none) :
    s.takeBytes time bytes = (s.endTransaction time).replyWith (bytes.headD 0) .badLength false [] := by
  simp [State.takeBytes, hd, hf, s.endTransaction_busy time hd hc]

end

/-! ### RESET# (R193) -/

theorem State.resetFalls_line (s : State) (c : Canonical s) (l : Nat) : s.resetFalls.line l = (s.line l).abandon :=
  Table.get_mapListed s.lines Line.por (fun _ x => x.abandon) l c.lines rfl

theorem State.resetFalls_link (s : State) (c : Canonical s) (l : Nat) : s.resetFalls.link l = (s.link l).abandon :=
  Table.get_mapListed s.links Link.por (fun _ x => x.abandon) l c.links rfl

/-- At the rise everything is at its reset value but the pins, the time, the waiting commands and the draw counter. -/
theorem State.resetRises_eq (s : State) (hd : s.device = .resetLow) :
    s.resetRises =
      { State.reset with
        pending := s.pending, now := s.now, draws := s.draws, device := .initialising, wltPin := s.wltPin
        inputs := s.resetRises.inputs } := by
  simp [State.resetRises, hd]

theorem State.resetRises_input (s : State) (hd : s.device = .resetLow) (c : Canonical s) (i : Nat) :
    s.resetRises.input i = (s.input i).reset := by
  have kept : s.resetRises.inputs = s.inputs.mapListed Input.por fun _ x => x.reset := by
    simp [State.resetRises, hd]
  rw [State.input, kept]
  exact Table.get_mapListed s.inputs Input.por (fun _ x => x.reset) i c.inputs rfl

theorem exec_initialisationEnd (s : State) (time : Nat) (hd : s.device = .initialising) :
    exec (.initialisationEnd time) s = .next
      { s with now := max s.now time, device := .running,
               timer := { s.timer with lastFrameStart := max s.now time } } := by
  have begun : ¬ s.device ≠ .initialising := Decidable.not_not.2 hd
  exact congrArg Host.Outcome.next (if_neg begun)

theorem exec_softClearComplete (s : State) (hd : s.device = .running) (hc : s.softClear = .cleared) :
    exec .softClearComplete s = .next { s with softClear := .none } := by
  simp [exec, execSoftClearComplete, State.whenRunning, hd, State.endSoftClear, hc]

/-- Settles O44, row by row. -/
theorem linkAndResetRowsComplete : Obligations.LinkAndResetRowsComplete := by
  refine ⟨⟨exec_transactionBegin, fun s time bytes hd hc => ⟨fun f hf hs hn => ?_, fun hf => ?_⟩⟩,
    fun s c => ?_, fun s hd c => ?_, exec_initialisationEnd, exec_softClearComplete⟩
  · exact congrArg Host.Outcome.next (s.takeBytes_unknown time bytes hd hc f hf hs hn)
  · exact congrArg Host.Outcome.next (s.takeBytes_bad time bytes hd hc hf)
  · refine ⟨s.resetFalls, rfl, rfl, rfl, rfl, rfl, rfl, rfl, fun l => ?_, fun l => ?_⟩
    · rw [s.resetFalls_line c]
      rfl
    · rw [s.resetFalls_link c]
      rfl
  · exact ⟨s.resetRises, rfl, s.resetRises_eq hd, fun i => s.resetRises_input hd c i⟩

/-! ### The POR values -/

/-- The three free lists hold every block and record in ascending order (R57, R145, R167). -/
theorem State.reset_free_lists :
    State.reset.poolFree = List.range 1024 ∧ State.reset.descriptorFree = List.range 1024 ∧
      State.reset.actionFree = List.range 2048 := by
  simp only [State.reset, and_self]

theorem Group.por_undefined (g : Nat) (hg : 1 ≤ g) : Group.por g = ⟨0, 0, 1⟩ := if_neg (Nat.ne_of_gt hg)

/-- Settles O3: every store is empty, so each number reads as its record's default. -/
theorem resetLeavesThePorValues : Obligations.ResetLeavesThePorValues := by
  obtain ⟨pool, descriptors, actions⟩ := State.reset_free_lists
  exact ⟨by decide, fun _ => ⟨rfl, rfl, rfl⟩, fun _ => rfl, ⟨rfl, Group.por_undefined⟩, fun _ => rfl, by decide,
    by decide, rfl, fun _ => rfl, fun _ _ => rfl, pool, rfl, rfl, rfl, rfl, fun _ => rfl, fun _ => rfl,
    fun _ => ⟨rfl, rfl, rfl⟩, rfl, rfl, fun _ => rfl, fun _ => ⟨rfl, rfl, rfl, rfl⟩,
    fun _ => ⟨rfl, rfl, rfl, rfl, rfl, rfl, rfl, fun _ => rfl, rfl⟩, fun _ => rfl, fun _ => ⟨rfl, rfl, rfl⟩,
    descriptors, fun _ => rfl, actions, by decide, fun _ => rfl, by decide, rfl, by decide, by decide⟩

end Sys2Proof.Machine
end

section
/-! PROOF. Sources (spec chapter 3): what a frame's reload leaves of the part (R49, R50), the ticks that a frame takes with
it (log 21), and the commands on sources (R41, R42, R45, R51, R52). -/

namespace Sys2Proof.Machine

/-! ### The outstanding ticks of the sources a frame has loaded (R50, log 21) -/

/-- What a frame leaves of one source, with the mark whether its tick is outstanding: a source with an outstanding tick to
which the frame gives another counter than 1 is ticked, and the tick is taken. -/
def Source.loadedTick (old : Source) (x : Source × Bool) : Source × Bool :=
  if x.2 = true ∧ x.1.counter ≠ old.counter ∧ x.1.counter ≠ 1 then
    ({ x.1 with counter := x.1.counter - 1 }, false)
  else x

/-- A source and whether its tick is outstanding. -/
def State.tickedSource (s : State) (n : Nat) : Source × Bool := (s.source n, decide (n ∈ s.work.lossDue))

theorem State.takeTick_loaded (s : State) (n : Nat) (hc : (s.source n).counter ≠ 1) :
    s.takeTick n =
      (s.setSource n { s.source n with counter := (s.source n).counter - 1 }).setWork
        { s.work with lossDue := s.work.lossDue.filter (· != n) } := if_neg hc

theorem State.takeTick_last (s : State) (n : Nat) (hc : (s.source n).counter = 1) : s.takeTick n = s.loseSource n :=
  if_pos hc

theorem State.tickedSource_takeTick (s : State) (n j : Nat) (hc : (s.source n).counter ≠ 1) :
    (s.takeTick n).tickedSource j =
      if j = n then ({ s.source n with counter := (s.source n).counter - 1 }, false) else s.tickedSource j := by
  rw [State.takeTick_loaded s n hc]
  by_cases hj : j = n
  · subst hj
    have own := s.source_setSource j { s.source j with counter := (s.source j).counter - 1 }
    rw [if_pos rfl]
    exact Prod.ext own (by simp [State.tickedSource])
  · have other := s.source_setSource_other n j { s.source n with counter := (s.source n).counter - 1 } hj
    rw [if_neg hj]
    exact Prod.ext other (by simp [State.tickedSource, hj])

/-- A loaded source's tick touches that source and its mark alone. -/
theorem State.tickedSource_takeLoadedTick (old s : State) (n j : Nat) :
    (State.takeLoadedTick old s n).tickedSource j =
      if j = n then (old.source n).loadedTick (s.tickedSource n) else s.tickedSource j := by
  by_cases h : n ∈ s.work.lossDue ∧ (s.source n).counter ≠ (old.source n).counter ∧ (s.source n).counter ≠ 1
  · obtain ⟨due, loaded, above⟩ := h
    have taken : (old.source n).loadedTick (s.tickedSource n) =
        ({ s.source n with counter := (s.source n).counter - 1 }, false) := by
      simp [Source.loadedTick, State.tickedSource, due, loaded, above]
    rw [State.takeLoadedTick, if_pos ⟨due, loaded, above⟩, State.tickedSource_takeTick s n j above, taken]
  · have same : (old.source n).loadedTick (s.tickedSource n) = s.tickedSource n :=
      if_neg (by simpa only [State.tickedSource, decide_eq_true_eq] using h)
    rw [State.takeLoadedTick, if_neg h, same]
    split <;> simp_all

theorem State.tickedSource_takeLoadedTicks (old s : State) (n : Nat) (hn : n < 5) :
    (State.takeLoadedTicks old s).tickedSource n = (old.source n).loadedTick (s.tickedSource n) := by
  obtain ⟨each, _⟩ := State.each_counts State.tickedSource (fun _ => []) (fun n => (old.source n).loadedTick)
    (fun _ _ => false) (State.tickedSource_takeLoadedTick old) (fun _ _ => rfl) s (List.range 5) List.nodup_range
  rw [State.takeLoadedTicks, each, if_pos (List.mem_range.2 hn)]

/-- Going on with the frame start's work leaves the sources. -/
theorem State.advance_source (s : State) (n : Nat) : s.advance.source n = s.source n :=
  State.source_of_sources (congrArg State.sources (Advanced.advance s).frame) n

theorem State.resume_source (old s : State) (n : Nat) :
    (State.resume old s).source n = (State.takeLoadedTicks old s).source n := by
  unfold State.resume
  dsimp only
  split
  · exact State.advance_source _ n
  · rfl

/-- A source with an outstanding tick that a frame has loaded ends one lower (log 21). -/
theorem State.resume_source_loaded (old s : State) (n : Nat) (hn : n < 5) (due : n ∈ s.work.lossDue)
    (loaded : (s.source n).counter ≠ (old.source n).counter) (above : (s.source n).counter ≠ 1) :
    (State.resume old s).source n = { s.source n with counter := (s.source n).counter - 1 } := by
  have tick := congrArg Prod.fst (State.tickedSource_takeLoadedTicks old s n hn)
  rw [State.resume_source]
  simpa [Source.loadedTick, State.tickedSource, due, loaded, above] using tick

/-- Where no outstanding tick is of a loaded source and nothing of the frame start's work has gone, nothing goes on. -/
theorem State.resume_same (old s : State) (hl : old.work.lossDue.length ≤ s.work.lossDue.length)
    (hq : (old.queue.filter Entry.due).length ≤ (s.queue.filter Entry.due).length)
    (hc : ∀ n ∈ s.work.lossDue, (s.source n).counter = (old.source n).counter) : State.resume old s = s := by
  have kept := State.takeLoadedTicks_same old s fun n hn => .inl (hc n hn)
  have stays : ¬ (s.work.lossDue.length < old.work.lossDue.length ∨
      (s.queue.filter Entry.due).length < (old.queue.filter Entry.due).length) := by omega
  rw [State.resume, kept]
  exact if_neg stays

/-! ### What is left of an application with nothing due but a tick -/

theorem takeFirstDue_none (q : List Entry) (h : q.any Entry.due = false) : takeFirstDue q = none := by
  induction q with
  | nil => rfl
  | cons e rest ih =>
    rw [List.any_cons, Bool.or_eq_false_iff] at h
    simp [takeFirstDue, h.1, ih h.2]

/-- Without a due entry there is nothing to apply (R85). -/
theorem State.applyDue_noneDue (s : State) (h : s.noneDue = true) (n : Nat) : s.applyDue n = s := by
  have none : takeFirstDue s.queue = none := takeFirstDue_none _ (by simpa [State.noneDue] using h)
  have next : s.applyNext = s := by rw [State.applyNext, none]
  induction n with
  | zero => rfl
  | succ n ih => rw [State.applyDue, next, ih]

theorem State.settleApplication_one (s : State) (n : Nat) (h : s.noneDue = true) (hn : s.work.lossDue = [n]) :
    s.settleApplication = s.takeTick n := by
  rw [State.settleApplication, State.applyDue_noneDue s h]
  show s.each State.takeTick s.work.lossDue = _
  rw [hn]
  rfl

/-! ### The reload (R49) -/

theorem State.met_events (s : State) (h : Header) :
    (s.met h).events = if (s.source h.src).state = .lost then (s.raise .sourceBack).events else s.events := by
  rw [State.met, State.reloadSource_frame]
  simp [State.raise, State.event]

/-- What a received frame leaves of the part before its own checks. -/
theorem State.met_frame (s : State) (h : Header) :
    s.met h =
      { s with
        transaction := false
        outgoing := if s.transaction then s.outgoing else s.reply
        reply := if s.transaction then s.reply else []
        now := max s.now h.time
        sources := (s.met h).sources
        events := if (s.source h.src).state = .lost then (s.raise .sourceBack).events else s.events } := by
  have reload := State.reloadSource_frame (s.endTransaction h.time) h.src
  rw [← State.met_events]
  have ended := State.endTransaction_frame s h.time
  unfold State.met
  generalize (s.endTransaction h.time).reloadSource h.src = u at reload ⊢
  rw [reload, ended]

theorem State.met_source_own (s : State) (h : Header) :
    (s.met h).source h.src = { s.source h.src with counter := (s.source h.src).reload, state := .live } := by
  rw [State.met_source, if_pos rfl]

/-- Settles O9: the frame of the reload, and of the tick that a frame takes with it. -/
theorem theReloadLeavesTheRestOfThePart : Obligations.TheReloadLeavesTheRestOfThePart := by
  intro s h
  refine ⟨s.met_frame h, s.met_source_other h, s.met_source_own h, fun n hd hn => ⟨fun hc => ?_, fun hc => ?_⟩,
    fun i t clamped fields => ⟨fun hl hq hc => ?_, fun n hn due loaded above => ?_⟩⟩
  · rw [State.settleApplication_one s n hd hn, State.takeTick_loaded s n hc, hn]
    simp [State.setSource, State.setWork]
  · rw [State.settleApplication_one s n hd hn, State.takeTick_last s n hc]
  · refine State.resume_same _ _ ?_ ?_ fun n hn => ?_
    · simpa using hl
    · simpa using hq
    · rw [State.endTransaction_source]
      exact hc n hn
  · refine State.resume_source_loaded _ (t.replyWith (i.code?.getD 0) .ok clamped fields) n hn due ?_ above
    rw [State.endTransaction_source]
    exact loaded

/-! ### TOUCH (R51) -/

/-- TOUCH takes no modifier at all (11.7). -/
theorem modifierStatus_touch (h : Header) :
    modifierStatus (.touch h) h ((Instr.touch h).code?.getD 0) = if h.mods = [] then none else some .modifierInvalid := by
  have invalid : (h.mods.any fun m => !(allowedModifiers 0x1A).contains m.code) = !h.mods.isEmpty := by
    cases h.mods with
    | nil => rfl
    | cons m ms => simp [allowedModifiers]
  show modifierProblem 0x1A h.mods = _
  rw [modifierProblem, invalid]
  cases h.mods <;> rfl

/-- A received frame with a modifier problem takes the reload and is answered with that status (R186, check 6). -/
theorem exec_modifier_refused (s : State) (h : Header) (i : Instr) (st : Status) (hh : i.header? = some h)
    (r : Received s h i) (hm : modifierStatus i h (i.code?.getD 0) = some st) :
    exec i s = .next (s.refused h i st) := by
  obtain ⟨running, clear, short, known⟩ := r
  have idle : (s.endTransaction h.time).busy = false := by simp [State.busy, running, clear]
  rw [exec_of_header i h s hh]
  unfold State.takeFrame State.judgeFrame State.judgeCommand
  rw [hm]
  simp [running, idle, Nat.not_lt.2 short, Nat.not_lt.2 known, State.refused, State.met]

/-- Settles O17: TOUCH without modifiers is admitted, and its own checks accept it as it stands. -/
theorem touchReloadsItsSource : Obligations.TouchReloadsItsSource := by
  intro s h
  have mods := modifierStatus_touch h
  refine ⟨rfl, fun r hm => ?_, fun r hm => ⟨?_, ?_, ?_, s.met_events h⟩⟩
  · rw [if_neg hm] at mods
    exact exec_modifier_refused s h _ _ rfl r mods
  · rw [if_pos hm] at mods
    obtain ⟨running, clear, short, known⟩ := r
    have a : Admitted s h (.touch h) := ⟨running, clear, short, known, mods, rfl⟩
    refine exec_accepted s _ h _ false _ rfl a ?_
    show touchOwn h (s.endTransaction h.time) (s.met h) = _
    rw [touchOwn, State.endTransaction_source, State.met_timer]
  · rw [State.met_source_own]
  · rw [State.met_source_own]

/-! ### SET_SOURCE, SET_SUPERVISION, READ_SOURCE (R41, R42, R45, R52) -/

/-- As `exec_refused`, of a command that awaits frame work. -/
theorem exec_refusedAt (s : State) (h : Header) (i : Instr) (st : Status) (hh : i.header? = some h)
    (a : Admitted s h i) (ho : i.own (s.endTransaction h.time) (s.judged h i) = .refuse st) :
    exec i s = .next (s.refusedAt h i st) := by
  rw [exec_of_header i h s hh, State.takeFrame_refusedAt s h i st a ho]

/-- What SET_SOURCE stores in its target (R41). -/
def State.configureSource (s : State) (b : SetSourceBody) (force : Bool) : State :=
  (s.setSource b.target.toNat
    { s.source b.target.toNat with
      priority := b.priority.toNat, ceiling := b.ceiling.toNat, quota := b.quota.toNat, mayForce := force,
      lossFade := b.lossFade.toNat, reload := b.reload.toNat }).loadLiveness b.target.toNat b.reload.toNat

section
variable (h : Header) (b : SetSourceBody) (force : Bool) (s : State) (hs : h.src ≤ 1)
  (hf : onOff b.mayForce = some force) (ht : b.target.toNat ≤ 4) (hc : b.ceiling.toNat ≤ 15)
  (hp : b.priority.toNat ≤ b.ceiling.toNat) (hq : b.quota.toNat ≤ 192)
include hs hf ht hc hp hq

/-- SET_SOURCE from a source that configures, with its fields in range, turns on SAFETY's protection and on what is in
use. -/
theorem setSourceOwn_inRange :
    setSourceOwn h b s =
      if safetyProtected h b force then .refuse .notPermitted
      else if b.quota.toNat < (s.source b.target.toNat).live then .refuse .inUse
      else if !(s.slotsWhere fun c => c.owner == b.target.toNat && b.ceiling.toNat < c.priority).isEmpty then
        .refuse .inUse
      else .accept (s.configureSource b force) false ((s.configureSource b force).source b.target.toNat).bytes := by
  have inRange : ¬ (b.target.toNat > 4 ∨ b.priority.toNat > 15 ∨ b.ceiling.toNat > 15 ∨ b.quota.toNat > 192 ∨
      b.priority.toNat > b.ceiling.toNat) := by omega
  simp only [setSourceOwn, h.configures_of_le hs, hf, Bool.not_true, Bool.false_eq_true, if_false, if_neg inRange]
  rfl

theorem setSourceOwn_accepts (hn : safetyProtected h b force = false) (hl : (s.source b.target.toNat).live ≤ b.quota.toNat)
    (hw : (s.slotsWhere fun c => c.owner == b.target.toNat && decide (b.ceiling.toNat < c.priority)) = []) :
    setSourceOwn h b s =
      .accept (s.configureSource b force) false ((s.configureSource b force).source b.target.toNat).bytes := by
  rw [setSourceOwn_inRange h b force s hs hf ht hc hp hq, hn, hw, if_neg (Nat.not_lt.2 hl)]
  rfl

theorem setSourceOwn_protects (hn : safetyProtected h b force = true) :
    setSourceOwn h b s = .refuse .notPermitted := by
  rw [setSourceOwn_inRange h b force s hs hf ht hc hp hq, if_pos hn]

end

theorem safetyProtected_other (h : Header) (b : SetSourceBody) (force : Bool) (ht : 1 ≤ b.target.toNat) :
    safetyProtected h b force = false := by
  have other : (b.target == 0) = false := beq_eq_false_iff_ne.2 fun e => by simp [e] at ht
  rw [safetyProtected, other, Bool.false_and]

/-- On SAFETY the protection of R42 asks for SAFETY itself, ceiling 15, may-force on and reload 0. -/
theorem safetyProtected_safety (h : Header) (b : SetSourceBody) (force : Bool) (ht : b.target = 0) :
    safetyProtected h b force = true ↔ h.src ≠ 0 ∨ b.ceiling.toNat ≠ 15 ∨ force = false ∨ b.reload ≠ 0 := by
  simp [safetyProtected, ht, or_assoc]

theorem setSupervisionOwn_accepts (h : Header) (n : Byte) (s : State) (hs : h.src ≤ 1) (hn : n ≠ 0) :
    setSupervisionOwn h n s = .accept { s with interval := n.toNat } false (u8 n.toNat) := by
  rw [setSupervisionOwn, h.configures_of_le hs]
  exact if_neg hn

/-- READ_SOURCE of a source 0..4 turns on its clear option alone (R52). -/
theorem readSourceOwn_read (h : Header) (n : Byte) (s : State) (hn : n.toNat ≤ 4) :
    readSourceOwn h n 0 s = .accept s false ((s.source n.toNat).bytes ++ u8 s.interval) := by
  simp [readSourceOwn, onOff, Nat.not_lt.2 hn]

theorem readSourceOwn_clear (h : Header) (n : Byte) (s : State) (hn : n.toNat ≤ 4) (hs : h.src = 0 ∨ h.src = n.toNat) :
    readSourceOwn h n 1 s =
      .accept (s.setSource n.toNat { s.source n.toNat with applyFails := 0 }) false
        ((s.source n.toNat).bytes ++ u8 s.interval) := by
  have own : ¬ (h.src ≠ 0 ∧ h.src ≠ n.toNat) := fun ⟨top, other⟩ => hs.elim top other
  simp [readSourceOwn, onOff, Nat.not_lt.2 hn, own]

theorem readSourceOwn_foreign (h : Header) (n : Byte) (s : State) (hn : n.toNat ≤ 4) (h0 : h.src ≠ 0)
    (hs : h.src ≠ n.toNat) : readSourceOwn h n 1 s = .refuse .notPermitted := by
  simp [readSourceOwn, onOff, Nat.not_lt.2 hn, h0, hs]

/-- What READ_SOURCE awaits (R50, R52; logs 4 and 21). -/
theorem State.judged_readSource (s : State) (h : Header) (n clear : Byte) :
    s.judged h (.readSource h n clear) =
      if n.toNat = h.src ∧ h.src ∈ s.work.lossDue then s.met h else (s.met h).settleToPass := by
  rw [State.judged, State.awaited, State.met_work]

/-- Settles O20: each command by the checks that its hypotheses leave open. -/
theorem sourceCommandsComplete : Obligations.SourceCommandsComplete := by
  intro s h
  refine ⟨fun b force a hs hf h1 h4 hc hp hq hl hw => ?_, fun b force a hs hf ht hc hp hq => ?_, fun n a hs hn => ?_, ?_⟩
  · refine ⟨_, rfl, exec_accepted s _ h _ false _ rfl a ?_⟩
    refine setSourceOwn_accepts h b force (s.met h) hs hf h4 hc hp hq (safetyProtected_other h b force h1) ?_ ?_
    · simpa using hl
    · rwa [State.met_slotsWhere]
  · have h4 : b.target.toNat ≤ 4 := by simp [ht]
    have protects := safetyProtected_safety h b force ht
    refine ⟨fun hn => ?_, fun h0 h15 hon hr hl hw => ⟨_, rfl, ?_⟩⟩
    · exact exec_refused s h _ .notPermitted rfl a rfl
        (setSourceOwn_protects h b force (s.met h) hs hf h4 hc hp hq (protects.2 hn))
    · have permitted : safetyProtected h b force = false :=
        Bool.eq_false_iff.2 fun hn => by rcases protects.1 hn with x | x | x | x <;> simp_all
      have target : b.target.toNat = 0 := by simp [ht]
      have reload : b.reload.toNat = 0 := by simp [hr]
      have own := setSourceOwn_accepts h b force (s.met h) hs hf h4 hc hp hq permitted
        (by simpa [target] using hl) (by rw [State.met_slotsWhere, target, h15]; exact hw)
      rw [State.configureSource, target, h15, hon, reload] at own
      exact exec_accepted s _ h _ false _ rfl a own
  · exact exec_accepted s _ h _ false _ rfl a (setSupervisionOwn_accepts h n (s.met h) hs hn)
  · intro n hn u
    have awaits (clear : Byte) : s.judged h (.readSource h n clear) = u := s.judged_readSource h n clear
    refine ⟨fun a => ?_, fun a hs => ?_, fun a h0 hs => ?_⟩
    · exact exec_accepted s _ h _ false _ rfl a (by rw [awaits]; exact readSourceOwn_read h n u hn)
    · exact exec_accepted s _ h _ false _ rfl a (by rw [awaits]; exact readSourceOwn_clear h n u hn hs)
    · exact exec_refusedAt s h _ .notPermitted rfl a (by rw [awaits]; exact readSourceOwn_foreign h n u hn h0 hs)

end Sys2Proof.Machine
end

section
/-! PROOF. Commands at arrival that join the queue or take from it (R40, R60, R93, R120, R122, R123, R127, R148): TAKE with
its reservation, the overrides and the plates, and FLUSH. -/

namespace Sys2Proof.Machine

/-! ### The queue's room (R88) -/

theorem State.queueRoom_pos (s : State) (hq : s.queue.length < 64) : s.queueRoom ≠ 0 := by
  unfold State.queueRoom
  omega

/-- The last arrival check passes where the queue has room. -/
theorem queueCommand_accepts (s : State) (h : Header) (eff : Word) (cl : Bool) (body : EntryBody) (hd : Option Handle)
    (hq : s.queue.length < 64) :
    queueCommand s h eff cl body hd =
      .accept (s.enqueue h.src .command eff body) cl (queuedFields eff s.arrival hd none) :=
  if_neg (s.queueRoom_pos hq)

/-- An admitted frame-applied command other than TAKE whose checks come down to the room in the queue. -/
theorem exec_queued (s : State) (h : Header) (i : Instr) (eff : Word) (cl : Bool) (body : EntryBody) (hd : Option Handle)
    (hh : i.header? = some h) (a : Admitted s h i) (hw : s.judged h i = s.met h) (hq : s.queue.length < 64)
    (ho : i.own (s.endTransaction h.time) (s.met h) = queueCommand (s.met h) h eff cl body hd) :
    exec i s = .next (s.queued h i eff cl body hd) := by
  rw [queueCommand_accepts _ _ _ _ _ _ (by rwa [State.met_queue]), State.met_arrival, ← hw] at ho
  rw [exec_accepted s _ h i cl _ hh a ho, hw]
  rfl

/-! ### Forces, freezes, masters and plates at arrival (R120, R122, R123, R127, R148) -/

section
variable {s : State} {h : Header} {eff : Word} {cl : Bool} (he : effectiveFrame s.timer.counter h = some (eff, cl))

theorem forceSetArrival_forbidden (x : SelectorField) (md : Byte) (v : Half) (hf : (s.source h.src).mayForce = false) :
    forceSetArrival h x md v s = .refuse .notPermitted := by
  simp [forceSetArrival, hf]

theorem forceClearArrival_forbidden (x : SelectorField) (hf : (s.source h.src).mayForce = false) :
    forceClearArrival h x s = .refuse .notPermitted := by
  simp [forceClearArrival, hf]

theorem masterSetArrival_forbidden (m : Byte) (v f : Half) (hf : (s.source h.src).mayForce = false) :
    masterSetArrival h m v f s = .refuse .notPermitted := by
  simp [masterSetArrival, hf]

theorem freezeArrival_undefined (g : Byte) (hg : (s.group g.toNat).count = 0) :
    freezeArrival h g s = .refuse .range := by
  simp [freezeArrival, State.freezable, hg]

theorem State.freezable_iff (s : State) (g : Nat) : s.freezable g = true ↔ g ≤ 127 ∧ (s.group g).count ≠ 0 := by
  simp [State.freezable]

include he

theorem forceSetArrival_queues (x : SelectorField) (md : Byte) (v : Half) (m : ForceMode)
    (hf : (s.source h.src).mayForce = true) (hm : forceModeOf md = some m)
    (hx : s.selectorValid (selectorOf x) = true) (hu : s.forceUnsuits (selectorOf x) m (forceValueOf h v) = false) :
    forceSetArrival h x md v s =
      queueCommand s h eff cl (.forceSet (selectorOf x) m (forceValueOf h v)) none := by
  simp [forceSetArrival, hf, hm, hx, hu, he]

theorem forceClearArrival_queues (x : SelectorField) (hf : (s.source h.src).mayForce = true)
    (hx : s.selectorValid (selectorOf x) = true) :
    forceClearArrival h x s = queueCommand s h eff cl (.forceClear (selectorOf x)) none := by
  simp [forceClearArrival, hf, hx, he]

theorem masterSetArrival_queues (m : Byte) (v f : Half) (fade : Option Nat) (hf : (s.source h.src).mayForce = true)
    (hm : m.toNat ≤ 3) (hfade : h.fade? = some fade) :
    masterSetArrival h m v f s =
      queueCommand s h eff cl (.masterSet m.toNat v.toNat (fade.getD f.toNat)) none := by
  simp [masterSetArrival, hf, Nat.not_lt.2 hm, hfade, he]

theorem freezeArrival_queues (g : Byte) (hg : s.freezable g.toNat = true) :
    freezeArrival h g s = queueCommand s h eff cl (.freeze g.toNat) none := by
  simp [freezeArrival, hg, he]

theorem thawArrival_queues (g : Byte) (hg : s.freezable g.toNat = true) :
    thawArrival h g s = queueCommand s h eff cl (.thaw g.toNat) none := by
  simp [thawArrival, hg, he]

theorem platePlayArrival_queues (p : Byte) (hp : p.toNat ≤ 7) :
    platePlayArrival h p s = queueCommand s h eff cl (.platePlay p.toNat) none := by
  simp [platePlayArrival, Nat.not_lt.2 hp, he]

theorem plateStopArrival_queues (p : Byte) (hp : p.toNat ≤ 7) :
    plateStopArrival h p s = queueCommand s h eff cl (.plateStop p.toNat) none := by
  simp [plateStopArrival, Nat.not_lt.2 hp, he]

end

/-- Settles O28: each command's own checks pass down to the room in the queue, or stop at may-force or at the group. -/
theorem overrideAndPlateArrivalsComplete : Obligations.OverrideAndPlateArrivalsComplete := by
  refine ⟨fun s h eff cl sch => ?_, fun s h eff cl sch => ?_⟩
  all_goals
    obtain ⟨frame, room⟩ := sch
    have at' : effectiveFrame (s.met h).timer.counter h = some (eff, cl) := by rwa [State.met_timer]
  · refine ⟨fun on => ?_, fun off => ?_⟩
    · have may : ((s.met h).source h.src).mayForce = true := by rwa [State.met_source_mayForce]
      refine ⟨fun x md m v a hm hx hu => ?_, fun x a hx => ?_, fun m v f fade a hm hfade => ?_⟩
      · exact exec_queued s h _ eff cl _ _ rfl a rfl room
          (forceSetArrival_queues at' x md v m may hm (by rwa [State.met_selectorValid]) (by rwa [State.met_forceUnsuits]))
      · exact exec_queued s h _ eff cl _ _ rfl a rfl room
          (forceClearArrival_queues at' x may (by rwa [State.met_selectorValid]))
      · exact exec_queued s h _ eff cl _ _ rfl a rfl room (masterSetArrival_queues at' m v f fade may hm hfade)
    · have mayNot : ((s.met h).source h.src).mayForce = false := by rwa [State.met_source_mayForce]
      exact ⟨fun x md v a => exec_refused s h _ _ rfl a rfl (forceSetArrival_forbidden x md v mayNot),
        fun x a => exec_refused s h _ _ rfl a rfl (forceClearArrival_forbidden x mayNot),
        fun m v f a => exec_refused s h _ _ rfl a rfl (masterSetArrival_forbidden m v f mayNot)⟩
  · refine ⟨fun g hg hc => ?_, fun g hc a => ?_, fun p hp => ⟨fun a => ?_, fun a => ?_⟩⟩
    · have defined : (s.met h).freezable g.toNat = true := by
        rw [State.met_freezable]
        exact (s.freezable_iff _).2 ⟨hg, hc⟩
      exact ⟨fun a => exec_queued s h _ eff cl _ _ rfl a rfl room (freezeArrival_queues at' g defined),
        fun a => exec_queued s h _ eff cl _ _ rfl a rfl room (thawArrival_queues at' g defined)⟩
    · exact exec_refused s h _ _ rfl a rfl (freezeArrival_undefined g (by rwa [State.met_group]))
    · exact exec_queued s h _ eff cl _ _ rfl a rfl room (platePlayArrival_queues at' p hp)
    · exact exec_queued s h _ eff cl _ _ rfl a rfl room (plateStopArrival_queues at' p hp)

/-! ### TAKE at arrival (R60, R61) -/

/-- The granted priority turns on the source's default priority and ceiling alone (R39), which the reload leaves. -/
theorem priorityOf_met (s : State) (h : Header) (n : Nat) (v : Option Word) :
    priorityOf ((s.met h).source n) v = priorityOf (s.source n) v := by
  cases v <;> simp [priorityOf]

/-- No reservation problem where the quota, the slots and the Level Pool leave room (R60, steps 6 to 8). -/
theorem State.reserveProblem_none (s : State) (n k : Nat) (form : ValueForm) (count : Nat)
    (hl : (s.source n).live ≠ (s.source n).quota) (hk : s.freeSlot = some k)
    (hb : blocksNeeded form count ≤ s.poolFree.length) : s.reserveProblem n form count = none := by
  simp [State.reserveProblem, hl, hk, Nat.not_lt.2 hb]

theorem takeArrival_accepts (s : State) (h : Header) (b : TakeBody) (policy : LossPolicy) (priority : Nat) (c1 c2 : Bool)
    (fade : Option Nat) (eff : Word) (k : Nat) (hp : policyOf b.policy = some policy)
    (hr : priorityOf (s.source h.src) (h.mod? 1) = some (priority, c1)) (hf : h.fade? = some fade)
    (he : effectiveFrame s.timer.counter h = some (eff, c2)) (hq : s.queue.length < 64)
    (hx : s.selectorValid (selectorOf b.selector) = true) (hn : b.name.toNat ≤ 4095) (hform : b.form.toNat ≤ 1)
    (ho : s.sourceOutOfRange (selectorOf b.selector) (takeTarget h b) = false)
    (problem : s.reserveProblem h.src (takeForm h b) (selectorOf b.selector).count = none) (hk : s.freeSlot = some k) :
    takeArrival h b s =
      .accept
        (s.reserve k
          (newContribution h.src b.name.toNat priority (selectorOf b.selector) (takeForm h b) (fade.getD b.fadeIn.toNat)
            b.fadeOut.toNat policy .command eff)
          (if b.form = 1 then b.targets.map BitVec.toNat else []))
        (c1 || c2) (queuedFields eff s.arrival (some (s.handleOf k)) (some priority)) := by
  have inRange : ¬ (b.name.toNat > 4095 ∨ b.form.toNat > 1) := by omega
  rw [takeArrival, hp, hr, hf, he]
  simp [hx, inRange, ho, s.queueRoom_pos hq, problem, hk]

/-- Settles O21: every check of R60 passes, and the lowest FREE slot is reserved. -/
theorem takeCompletes : Obligations.TakeCompletes := by
  intro s h b policy priority c1 c2 fade eff k a hp hr hf sch hx hn hform ho hl hk hb
  obtain ⟨frame, room⟩ := sch
  have problem : (s.met h).reserveProblem h.src (takeForm h b) (selectorOf b.selector).count = none := by
    refine State.reserveProblem_none _ _ k _ _ ?_ (by rwa [State.met_freeSlot]) (by rwa [State.met_poolFree])
    rwa [State.met_source_live, State.met_source_quota]
  have own := takeArrival_accepts (s.met h) h b policy priority c1 c2 fade eff k hp (by rwa [priorityOf_met]) hf
    (by rwa [State.met_timer]) (by rwa [State.met_queue]) (by rwa [State.met_selectorValid]) hn hform
    (by rwa [State.met_sourceOutOfRange]) problem (by rwa [State.met_freeSlot])
  rw [State.met_arrival, State.handleOf, State.met_slot] at own
  exact exec_accepted s _ h _ (c1 || c2) _ rfl a own

/-! ### FLUSH (R93) -/

theorem flushOwn_accepts (s : State) (h : Header) (n : Byte) (a : Option Word) (hn : n.toNat ≤ 4)
    (hs : h.src = 0 ∨ h.src = n.toNat) (ha : a.isSome = true → s.queue.any (Entry.flushed n.toNat a) = true) :
    flushOwn h n a s =
      .accept (s.flush n.toNat a) false
        (u8 (s.queue.filter (Entry.flushed n.toNat a)).length ++
          u8 (takeHandles (s.queue.filter (Entry.flushed n.toNat a))).length) := by
  have permitted : ¬ (h.src ≠ 0 ∧ n.toNat ≠ h.src) := by omega
  have found : ¬ (a.isSome = true ∧ s.queue.filter (Entry.flushed n.toNat a) = []) := by
    rintro ⟨hsome, hnone⟩
    obtain ⟨e, he, hf⟩ := List.any_eq_true.1 (ha hsome)
    exact List.filter_eq_nil_iff.1 hnone e he hf
  simp only [flushOwn, if_neg permitted, if_neg (Nat.not_lt.2 hn), if_neg found]

/-- Settles O30: the accepted FLUSH, and the return of the reserved slots by the lemmas about several freed slots. -/
theorem flushCompletes : Obligations.FlushCompletes := by
  intro s h n a adm hn hs ha gone
  have own := flushOwn_accepts (s.met h) h n a hn hs (by rwa [State.met_queue])
  rw [State.met_queue] at own
  refine ⟨exec_accepted s _ h _ false _ rfl adm own, ?_, fun hd hmem => ?_, fun k hk => ?_⟩
  · rw [State.flush, State.freeHandles, State.each_free_queue, State.met_queue]
  · rw [State.flush, State.freeHandles, State.met_queue]
    exact State.each_free_slot _ _ _ (.inl (List.mem_map_of_mem hmem))
  · rw [State.flush, State.freeHandles, State.met_queue]
    have kept : k ∉ (takeHandles gone).map Handle.slot := fun hmem => by
      obtain ⟨hd, hin, heq⟩ := List.mem_map.1 hmem
      exact hk hd hin heq
    rw [State.each_free_other _ _ _ kept]
    exact s.met_slot h k

end Sys2Proof.Machine
end

section
/-! PROOF. What a frame start counts (R45, R46, R72, R129, R149, R162): the supervision tick, and one equation for each
outcome of a count of a fade, a master, a plate and a wake; from these, what several frame starts count. -/

namespace Sys2Proof.Machine

/-! ### The supervision tick (R45, R46) -/

theorem State.tickSource_unticked (s : State) (n : Nat) (h : (s.source n).reload = 0 ∨ (s.source n).state = .lost) :
    s.tickSource n = s := by
  have stays : (s.source n).ticks = false := by rcases h with h | h <;> simp [Source.ticks, h]
  rw [State.tickSource_eq]
  simp [Source.tickEnds, stays]

theorem State.tickSource_counts (s : State) (n : Nat) (hr : (s.source n).reload ≠ 0) (hl : (s.source n).state = .live)
    (hc : 2 ≤ (s.source n).counter) :
    s.tickSource n = s.setSource n { s.source n with counter := (s.source n).counter - 1 } := by
  have ticks := (Source.ticks_iff _).2 ⟨hr, hl⟩
  have above : (s.source n).counter ≠ 1 := by omega
  rw [State.tickSource_eq]
  simp [Source.tickEnds, Source.ticked, ticks, above]

theorem State.tickSource_ends (s : State) (n : Nat) (hr : (s.source n).reload ≠ 0) (hl : (s.source n).state = .live)
    (hc : (s.source n).counter = 1) :
    s.tickSource n = { s with work := { s.work with lossDue := s.work.lossDue ++ [n] } } := by
  have ticks := (Source.ticks_iff _).2 ⟨hr, hl⟩
  rw [State.tickSource_eq]
  simp [Source.tickEnds, ticks, hc]

theorem tickAt_iff (interval : Nat) (n : Word) : tickAt interval n = true ↔ (interval : Int) ∣ n.toInt := by
  rw [tickAt, beq_iff_eq, Int.dvd_iff_emod_eq_zero]

/-! ### Counting one item several times -/

/-- Where each count takes an item from `r i` to `r (i + 1)`, `n` counts take it from `r 0` to `r n`. -/
theorem State.each_replicate {α : Type} (item : State → α) (f : State → Nat → State) (k : Nat) (r : Nat → α) (n : Nat)
    (step : ∀ t i, i < n → item t = r i → item (f t k) = r (i + 1)) (s : State) (h0 : item s = r 0) :
    item (s.each f (List.replicate n k)) = r n := by
  suffices from' : ∀ m i t, i + m ≤ n → item t = r i → item (t.each f (List.replicate m k)) = r (i + m) by
    simpa using from' n 0 s (by omega) h0
  intro m
  induction m with
  | zero => exact fun i t _ ht => ht
  | succ m ih =>
    intro i t hm ht
    have next := ih (i + 1) (f t k) (by omega) (step t i (by omega) ht)
    rwa [Nat.add_right_comm i 1 m] at next

/-! ### Fades (R72) -/

section
variable (s : State) (k : Nat)

theorem State.countFade_free (hr : (s.slot k).record = none) : s.countFade k = s := by
  rw [State.countFade, hr]

variable (c : Contribution) (hr : (s.slot k).record = some c)
include hr

/-- The count of a slot that holds a record. -/
theorem State.countFade_record :
    s.countFade k =
      if !c.counted then (if c.fresh then s.setRecord k { c with fresh := false } else s)
      else if c.phase = .fadingIn ∧ c.elapsed + 1 < c.fadeIn then s.setRecord k { c with elapsed := c.elapsed + 1 }
      else if c.phase = .fadingOut ∧ 1 < c.remaining then s.setRecord k { c with remaining := c.remaining - 1 }
      else s.setWork { s.work with fadesDue := s.work.fadesDue ++ [k] } := by
  rw [State.countFade, hr]
  rfl

/-- A record that entered its fade at this frame start loses its mark and counts nothing. -/
theorem State.countFade_fresh (hf : c.fresh = true) : s.countFade k = s.setRecord k { c with fresh := false } := by
  simp [s.countFade_record k c hr, Contribution.counted, hf]

theorem State.countFade_rests (hf : c.fresh = false) (h : c.phase = .pending ∨ c.phase = .held ∨ c.paused = true) :
    s.countFade k = s := by
  have uncounted : c.counted = false := by rcases h with h | h | h <;> simp [Contribution.counted, h]
  simp [s.countFade_record k c hr, uncounted, hf]

theorem State.countFade_in (hf : c.fresh = false) (hp : c.paused = false) (hc : c.phase = .fadingIn)
    (he : c.elapsed + 1 < c.fadeIn) : s.countFade k = s.setRecord k { c with elapsed := c.elapsed + 1 } := by
  simp [s.countFade_record k c hr, Contribution.counted, hf, hp, hc, he]

theorem State.countFade_in_ends (hf : c.fresh = false) (hp : c.paused = false) (hc : c.phase = .fadingIn)
    (he : c.fadeIn ≤ c.elapsed + 1) : s.countFade k = s.setWork { s.work with fadesDue := s.work.fadesDue ++ [k] } := by
  simp [s.countFade_record k c hr, Contribution.counted, hf, hp, hc, Nat.not_lt.2 he]

theorem State.countFade_out (hf : c.fresh = false) (hp : c.paused = false) (hc : c.phase = .fadingOut)
    (he : 2 ≤ c.remaining) : s.countFade k = s.setRecord k { c with remaining := c.remaining - 1 } := by
  have above : 1 < c.remaining := he
  simp [s.countFade_record k c hr, Contribution.counted, hf, hp, hc, above]

theorem State.countFade_out_ends (hf : c.fresh = false) (hp : c.paused = false) (hc : c.phase = .fadingOut)
    (he : c.remaining ≤ 1) : s.countFade k = s.setWork { s.work with fadesDue := s.work.fadesDue ++ [k] } := by
  simp [s.countFade_record k c hr, Contribution.counted, hf, hp, hc, Nat.not_lt.2 he]

end

theorem State.record_setRecord (s : State) (k : Nat) (c : Contribution) : ((s.setRecord k c).slot k).record = some c := by
  rw [State.slot_setRecord]

/-- The record of a release with a length above 0 (R67). -/
theorem State.release_record (s : State) (k L : Nat) (c : Contribution) (hr : (s.slot k).record = some c) (hL : L ≠ 0) :
    ((s.release k L).slot k).record =
      some { c with
        name := 0, phase := .fadingOut, fadeOut := L, elapsed := 0, remaining := L, paused := false, fresh := true } := by
  rw [State.release, hr]
  simp only [if_neg hL]
  exact State.record_setRecord _ k _

section
variable (s : State) (k n : Nat) (c : Contribution) (hr : (s.slot k).record = some c)
include hr

theorem State.countFade_times_in (hf : c.fresh = false) (hp : c.paused = false) (hc : c.phase = .fadingIn)
    (h0 : c.elapsed = 0) (hn : n < c.fadeIn) :
    ((s.each State.countFade (List.replicate n k)).slot k).record = some { c with elapsed := n } := by
  refine State.each_replicate (fun t => (t.slot k).record) _ k (fun i => some { c with elapsed := i }) n
    (fun t i hi ht => ?_) s (by rw [hr, ← h0])
  rw [t.countFade_in k _ ht hf hp hc (by show i + 1 < c.fadeIn; omega)]
  exact State.record_setRecord t k _

theorem State.countFade_times_out (hf : c.fresh = false) (hp : c.paused = false) (hc : c.phase = .fadingOut)
    (hn : n < c.remaining) :
    ((s.each State.countFade (List.replicate n k)).slot k).record = some { c with remaining := c.remaining - n } := by
  refine State.each_replicate (fun t => (t.slot k).record) _ k (fun i => some { c with remaining := c.remaining - i }) n
    (fun t i hi ht => ?_) s hr
  rw [t.countFade_out k _ ht hf hp hc (by show 2 ≤ c.remaining - i; omega)]
  exact State.record_setRecord t k _

theorem State.countFade_times_paused (hp : c.paused = true) (hf : c.fresh = false) :
    ((s.each State.countFade (List.replicate n k)).slot k).record = some c :=
  State.each_replicate (fun t => (t.slot k).record) _ k (fun _ => some c) n
    (fun t i _ ht => by rw [t.countFade_rests k c ht hf (.inr (.inr hp))]; exact ht) s hr

end

/-! ### Masters (R129) -/

section
variable (s : State) (m : Nat)

theorem State.countMaster_steady (hs : (s.master m).state = .steady) : s.countMaster m = s := by
  simp [State.countMaster, hs]

variable (hs : (s.master m).state = .fading)
include hs

theorem State.countMaster_fresh (hf : (s.master m).fresh = true) :
    s.countMaster m = s.setMaster m { s.master m with fresh := false } := by
  simp [State.countMaster, hs, hf]

theorem State.countMaster_counts (hf : (s.master m).fresh = false) (he : (s.master m).elapsed + 1 < (s.master m).length) :
    s.countMaster m =
      s.setMaster m
        { s.master m with
          elapsed := (s.master m).elapsed + 1
          level := mixLevel (s.master m).start (s.master m).target ((s.master m).elapsed + 1) (s.master m).length } := by
  simp [State.countMaster, hs, hf, he]

theorem State.countMaster_ends (hf : (s.master m).fresh = false) (he : (s.master m).length ≤ (s.master m).elapsed + 1) :
    s.countMaster m = s.setWork { s.work with mastersDue := s.work.mastersDue ++ [m] } := by
  simp [State.countMaster, hs, hf, Nat.not_lt.2 he, State.setWork]

end

/-- A mix of length above 0 begins at its start (R99). -/
theorem mixLevel_start (a b F : Nat) (hF : 0 < F) : mixLevel a b 0 F = a := by
  have half : F / 2 / F = 0 := Nat.div_eq_of_lt (Nat.div_lt_self hF (by decide))
  simp [mixLevel, roundedMix, half]

/-- The record of a master whose fade of length F from a to v has counted i frame starts (R126, R129). -/
def Master.fadingAt (a v F i : Nat) : Master :=
  { state := .fading, level := mixLevel a v i F, start := a, target := v, length := F, elapsed := i, fresh := false }

theorem State.countMaster_fadingAt (s : State) (m a v F i : Nat) (h : s.master m = Master.fadingAt a v F i)
    (hi : i + 1 < F) : (s.countMaster m).master m = Master.fadingAt a v F (i + 1) := by
  rw [s.countMaster_counts m (by rw [h]; rfl) (by rw [h]; rfl) (by rw [h]; exact hi), State.master_setMaster, h]
  rfl

theorem applyMasterSet_fading (s : State) (m v F : Nat) (hF : F ≠ 0) :
    (applyMasterSet s m v F).master m =
      { state := .fading, level := (s.master m).level, start := (s.master m).level, target := v, length := F,
        elapsed := 0, fresh := true } := by
  simp [applyMasterSet, hF]

/-- The count of the frame start that sets a master takes its mark off alone. -/
theorem State.countMaster_applied (s : State) (m v F : Nat) (hF : 0 < F) :
    ((applyMasterSet s m v F).countMaster m).master m = Master.fadingAt (s.master m).level v F 0 := by
  have set := applyMasterSet_fading s m v F (by omega)
  rw [State.countMaster_fresh _ m (by rw [set]) (by rw [set]), State.master_setMaster, set, Master.fadingAt,
    mixLevel_start _ _ _ hF]

/-! ### Plates (R149) -/

section
variable (s : State) (p : Nat)

theorem State.countPlate_rests (h : (s.plate p).state ≠ .playing ∨ (s.plate p).wasPlaying = false) :
    s.countPlate p = s := if_pos h

variable (hs : (s.plate p).state = .playing) (hw : (s.plate p).wasPlaying = true)
include hs hw

theorem State.countPlate_counts (hh : (s.plate p).held + 1 < (s.plate p).hold) :
    s.countPlate p = s.setPlate p { s.plate p with held := (s.plate p).held + 1 } := by
  simp [State.countPlate, hs, hw, hh]

theorem State.countPlate_ends (hh : (s.plate p).hold ≤ (s.plate p).held + 1) :
    s.countPlate p = s.setWork { s.work with platesDue := s.work.platesDue ++ [p] } := by
  simp [State.countPlate, hs, hw, Nat.not_lt.2 hh, State.setWork]

theorem State.countPlate_times (n : Nat) (hn : (s.plate p).held + n < (s.plate p).hold) :
    (s.each State.countPlate (List.replicate n p)).plate p = { s.plate p with held := (s.plate p).held + n } := by
  refine State.each_replicate (State.plate · p) _ p (fun i => { s.plate p with held := (s.plate p).held + i }) n
    (fun t i hi ht => ?_) s rfl
  rw [t.countPlate_counts p (by rw [ht]; exact hs) (by rw [ht]; exact hw)
    (by rw [ht]; show (s.plate p).held + i + 1 < (s.plate p).hold; omega), State.plate_setPlate, ht]
  rfl

end

/-- The supervision tick and the look at the cue lists leave the plates. -/
theorem State.superviseAt_skipIdle_plate (s : State) (m : Word) (p : Nat) (h : s.work.evaluation = some ⟨0, 0⟩) :
    (s.superviseAt m).skipIdle.plate p = s.plate p := by
  have tick := Ticked.superviseAt s m
  rw [State.skipIdle_start _ (tick.evaluation.trans h)]
  show (s.superviseAt m).plates.get _ p = s.plates.get _ p
  rw [tick.frame]

/-- A frame start marks the plates that are PLAYING before its application (R149). -/
theorem State.frameStart_wasPlaying (s : State) (hc : Canonical s) (t p : Nat) :
    ((s.frameStart t).plate p).wasPlaying = ((s.settle.plate p).state == .playing) := by
  have settled : Canonical s.settle := (KeptRoom.settle s).canonical hc
  have opened : Canonical (s.settle.openFrame t) :=
    (((Kept.abandonFetches _).trans (Kept.turnFrame _)).trans ((Kept.fixDueSet _ _).trans (Kept.setWork _ _))).canonical
      ((KeptTimed.setTimer _ _).canonical settled)
  have looked : Canonical ((s.settle.openFrame t).superviseAt s.timer.nextFrame).skipIdle :=
    ((Kept.superviseAt _ _).trans (Kept.skipIdle _)).canonical opened
  rw [State.frameStart_openFrame, State.advance_wasPlaying _ looked, State.superviseAt_skipIdle_plate _ _ _ rfl]
  exact congrArg Plate.wasPlaying (Table.get_mapListed s.settle.plates Plate.por
    (fun _ x => { x with wasPlaying := x.state == .playing }) p settled.plates rfl)

/-! ### Wakes (R162) -/

section
variable (s : State) (l : Nat)

theorem State.countWake_rests (h : (s.link l).state ≠ .waking) : s.countWake l = s := if_pos h

variable (hs : (s.link l).state = .waking)
include hs

theorem State.countWake_counts (hw : (s.link l).wakeCount + 1 < (s.link l).wakeDelay) :
    s.countWake l = s.setLink l { s.link l with wakeCount := (s.link l).wakeCount + 1 } := by
  simp [State.countWake, hs, hw]

theorem State.countWake_ends (hw : (s.link l).wakeDelay ≤ (s.link l).wakeCount + 1) :
    s.countWake l = s.setWork { s.work with wakesDue := s.work.wakesDue ++ [l] } := by
  simp [State.countWake, hs, Nat.not_lt.2 hw, State.setWork]

theorem State.countWake_times (n : Nat) (hn : (s.link l).wakeCount + n < (s.link l).wakeDelay) :
    (s.each State.countWake (List.replicate n l)).link l = { s.link l with wakeCount := (s.link l).wakeCount + n } := by
  refine State.each_replicate (State.link · l) _ l (fun i => { s.link l with wakeCount := (s.link l).wakeCount + i }) n
    (fun t i hi ht => ?_) s rfl
  rw [t.countWake_counts l (by rw [ht]; exact hs)
    (by rw [ht]; show (s.link l).wakeCount + i + 1 < (s.link l).wakeDelay; omega), State.link_setLink, ht]
  rfl

end

/-- Settles O60, kind by kind: each outcome of one count, and then what several counts leave. -/
theorem ticksAndFadesCountFrameStarts : Obligations.TicksAndFadesCountFrameStarts := by
  refine ⟨⟨fun s n => ⟨s.tickSource_unticked n, s.tickSource_counts n, s.tickSource_ends n⟩, tickAt_iff⟩,
    fun s k => ⟨s.countFade_free k, fun c hr => ⟨s.countFade_fresh k c hr, s.countFade_rests k c hr,
      fun hf hp hc => ⟨s.countFade_in k c hr hf hp hc, s.countFade_in_ends k c hr hf hp hc⟩,
      fun hf hp hc => ⟨s.countFade_out k c hr hf hp hc, s.countFade_out_ends k c hr hf hp hc⟩⟩⟩,
    fun s m => ⟨s.countMaster_steady m, s.countMaster_fresh m,
      fun hs hf => ⟨s.countMaster_counts m hs hf, s.countMaster_ends m hs hf⟩⟩,
    fun s p => ⟨s.countPlate_rests p,
      fun hs hw => ⟨s.countPlate_counts p hs hw, s.countPlate_ends p hs hw, s.countPlate_times p hs hw⟩,
      fun hc t => s.frameStart_wasPlaying hc t p⟩,
    fun s l => ⟨s.countWake_rests l,
      fun hs => ⟨s.countWake_counts l hs, s.countWake_ends l hs, s.countWake_times l hs⟩⟩,
    fun s m v F n hn => ?_, fun s k n c hr => ⟨fun hc hf hp h0 hn => ?_, fun L hL => ?_, s.countFade_times_paused k n c hr⟩⟩
  · exact State.each_replicate (State.master · m) _ m (Master.fadingAt (s.master m).level v F) n
      (fun t i hi ht => t.countMaster_fadingAt m _ v F i ht (by omega)) ((applyMasterSet s m v F).countMaster m)
      (s.countMaster_applied m v F (by omega))
  · rw [List.replicate_succ, State.each, s.countFade_fresh k c hr hf]
    exact State.countFade_times_in _ k n { c with fresh := false } (State.record_setRecord s k _) rfl hp hc h0 hn
  · have released := s.release_record k L c hr (by omega)
    rw [List.replicate_succ, State.each, State.countFade_fresh _ k _ released rfl]
    exact State.countFade_times_out _ k n _ (State.record_setRecord (s.release k L) k _) rfl rfl rfl hL

end Sys2Proof.Machine
end

section
/-! PROOF. The rows that take one end of a frame start's counts (R46, R47, R72, R129, R149, R158, R162, R163): each row of a
running part does its completion and goes on, and the completions by their cases. -/

namespace Sys2Proof.Machine

/-! ### The rows -/

section
variable (s : State) (hr : s.device = .running)
include hr

theorem exec_sourceLost (n : Fin 5) (h : n.val ∈ s.work.lossDue) :
    exec (.sourceLost n) s = .next (s.loseSource n.val).advance :=
  congrArg Host.Outcome.next ((if_pos hr).trans (if_pos h))

theorem exec_fadeInComplete (k : Fin 192) (c : Contribution) (h : k.val ∈ s.work.fadesDue)
    (hc : (s.slot k.val).record = some c) (hp : c.phase = .fadingIn) :
    exec (.fadeInComplete k) s = .next
      ((s.setWork { s.work with fadesDue := s.work.fadesDue.filter (· != k.val) }).completeFadeIn k.val).advance :=
  congrArg Host.Outcome.next ((if_pos hr).trans (if_pos ⟨h, by simp [hc, hp]⟩))

theorem exec_fadeOutComplete (k : Fin 192) (c : Contribution) (h : k.val ∈ s.work.fadesDue)
    (hc : (s.slot k.val).record = some c) (hp : c.phase = .fadingOut) :
    exec (.fadeOutComplete k) s = .next
      ((s.setWork { s.work with fadesDue := s.work.fadesDue.filter (· != k.val) }).completeFadeOut k.val).advance :=
  congrArg Host.Outcome.next ((if_pos hr).trans (if_pos ⟨h, by simp [hc, hp]⟩))

theorem exec_masterFadeEnd (m : Fin 4) (h : m.val ∈ s.work.mastersDue) :
    exec (.masterFadeEnd m) s = .next
      ((s.setWork { s.work with mastersDue := s.work.mastersDue.filter (· != m.val) }).completeMaster m.val).advance :=
  congrArg Host.Outcome.next ((if_pos hr).trans (if_pos h))

theorem exec_plateHoldExpiry (p : Fin 8) (h : p.val ∈ s.work.platesDue) :
    exec (.plateHoldExpiry p) s = .next
      ((s.setWork { s.work with platesDue := s.work.platesDue.filter (· != p.val) }).completePlate p.val).advance :=
  congrArg Host.Outcome.next ((if_pos hr).trans (if_pos h))

theorem exec_dissolveEnd (t : Fin 64) (h : t.val ∈ s.work.dissolvesDue) :
    exec (.dissolveEnd t) s = .next
      ((s.setWork { s.work with dissolvesDue := s.work.dissolvesDue.filter (· != t.val) }).completeDissolve
        t.val).advance :=
  congrArg Host.Outcome.next ((if_pos hr).trans (if_pos h))

theorem exec_linkWakeComplete (l : Fin 4) (h : l.val ∈ s.work.wakesDue) :
    exec (.linkWakeComplete l) s = .next
      ((s.setWork { s.work with wakesDue := s.work.wakesDue.filter (· != l.val) }).completeWake l.val).advance :=
  congrArg Host.Outcome.next ((if_pos hr).trans (if_pos h))

theorem exec_linkIdleExpiry (l : Fin 4) (h : l.val ∈ s.work.idleDue) :
    exec (.linkIdleExpiry l) s = .next
      ((s.setWork { s.work with idleDue := s.work.idleDue.filter (· != l.val) }).restLink l.val) :=
  congrArg Host.Outcome.next ((if_pos hr).trans (if_pos h))

end

/-! ### The completions -/

section
variable (s : State)

/-- The loss of a source (R46, R47), its releases named by the state before it. -/
theorem State.loseSource_eq (n : Nat) :
    s.loseSource n =
      ((({ s with work := { s.work with lossDue := s.work.lossDue.filter (· != n) } }.setSource n
        { s.source n with counter := 0, state := .lost }).raise .sourceLost).each
          (fun t k => t.release k (s.source n).lossFade) (s.lossReleases n)) := by
  have fade : ((({ s with work := { s.work with lossDue := s.work.lossDue.filter (· != n) } }.setSource n
      { s.source n with counter := 0, state := .lost }).raise .sourceLost).source n).lossFade = (s.source n).lossFade := by
    rw [State.raise_source, State.source_setSource]
  rw [← fade]
  rfl

theorem State.completeFadeIn_record (k : Nat) (c : Contribution) (hc : (s.slot k).record = some c)
    (hp : c.phase = .fadingIn) : s.completeFadeIn k = s.setRecord k { c with phase := .held, elapsed := c.fadeIn } := by
  rw [State.completeFadeIn, hc]
  exact if_pos hp

theorem State.completeFadeOut_record (k : Nat) (c : Contribution) (hc : (s.slot k).record = some c)
    (hp : c.phase = .fadingOut) : s.completeFadeOut k = s.free k := by
  rw [State.completeFadeOut, hc]
  exact if_pos hp

theorem State.completeDissolve_dissolving (t : Nat) (h : (s.tile t).fromSource ≠ none) :
    s.completeDissolve t = s.setTile t { s.tile t with fromSource := none, fromStore := none, elapsed := 0 } :=
  if_neg (by rwa [Option.isNone_iff_eq_none])

theorem State.completeWake_waking (l : Nat) (h : (s.link l).state = .waking) :
    s.completeWake l =
      s.setLink l { s.link l with state := .active, wakeCount := (s.link l).wakeCount + 1, idleCount := 0 } :=
  if_neg (not_not_intro h)

section
variable (p : Nat) (hs : (s.plate p).state = .playing)
include hs

theorem State.completePlate_next (h : (s.plate p).image + 1 < s.imageCount (s.plate p).clip) :
    s.completePlate p = s.setPlate p { s.plate p with image := (s.plate p).image + 1, held := 0 } := by
  simp [State.completePlate, hs, h]

variable (h : s.imageCount (s.plate p).clip ≤ (s.plate p).image + 1)
include h

theorem State.completePlate_loop (he : (s.plate p).endMode = .loop) :
    s.completePlate p = s.setPlate p { s.plate p with image := 0, held := 0 } := by
  simp [State.completePlate, hs, Nat.not_lt.2 h, he]

theorem State.completePlate_ends (he : (s.plate p).endMode ≠ .loop) :
    s.completePlate p =
      (s.setPlate p
        { s.plate p with
          state := .ended, image := s.imageCount (s.plate p).clip - 1, held := (s.plate p).hold - 1 }).raise .plateEnd := by
  cases hm : (s.plate p).endMode with
  | loop => exact absurd hm he
  | holdLast => simp [State.completePlate, hs, Nat.not_lt.2 h, hm]
  | black => simp [State.completePlate, hs, Nat.not_lt.2 h, hm]

end

/-! ### The rest of a link (R163) -/

variable (l : Nat) (hc : Canonical s)
include hc

/-- Of two writes of one link the later stands. -/
theorem State.setLink_setLink (x y : Link) : (s.setLink l x).setLink l y = s.setLink l y := by
  simp only [State.setLink, Table.set_set _ _ _ _ _ hc.links]

/-- A link whose transmitter is IDLE takes its SLEEP frame and begins it at once: the frame's one packet carries no
image. -/
theorem State.restLink_idle (hi : (s.link l).inFlight = none) :
    s.restLink l = s.setLink l
      { s.link l with
        state := .standby, wakeCount := 0, sequence := ((s.link l).sequence + 1) % 256
        inFlight := some ⟨⟨((s.link l).sequence + 1) % 256, s.timer.counter, s.timer.timedFromRef, .sleep, false⟩, 0⟩ } := by
  have rests : (s.setLink l { s.link l with state := .standby, wakeCount := 0 }).link l =
      { s.link l with state := .standby, wakeCount := 0 } := s.link_setLink l _
  rw [State.restLink, State.linkTakes, rests]
  simp only [hi]
  rw [State.setLink_setLink s l hc, State.beginLinkFrame, State.link_setLink, State.setLink_setLink s l hc]
  rfl

/-- A link that is SENDING lets its SLEEP frame wait, with a slip, and a drop where a set was waiting. -/
theorem State.restLink_sending (hi : (s.link l).inFlight ≠ none) :
    s.restLink l = (s.setLink l
      { s.link l with
        state := .standby, wakeCount := 0, sequence := ((s.link l).sequence + 1) % 256
        waiting := some ⟨((s.link l).sequence + 1) % 256, s.timer.counter, s.timer.timedFromRef, .sleep, false⟩
        slips := saturate 65535 (s.link l).slips
        drops := if (s.link l).waiting.isSome then saturate 65535 (s.link l).drops else (s.link l).drops }).raise
      .outputSlip := by
  have rests : (s.setLink l { s.link l with state := .standby, wakeCount := 0 }).link l =
      { s.link l with state := .standby, wakeCount := 0 } := s.link_setLink l _
  obtain ⟨f, hf⟩ := Option.ne_none_iff_exists'.1 hi
  rw [State.restLink, State.linkTakes, rests]
  simp only [hf]
  rw [State.setLink_setLink s l hc]
  rfl

end

/-- Settles O48: each row by its completion. -/
theorem countedEndsComplete : Obligations.CountedEndsComplete := by
  refine ⟨fun s hr => ⟨fun n hn => ?_, fun k c hk hc => ⟨fun hp => ?_, fun hp => ?_⟩, fun m hm => ?_⟩,
    fun s hr => ⟨?_, fun t ht hx => ?_, fun l hl hx => ?_, ?_⟩⟩
  · rw [exec_sourceLost s hr n hn, State.loseSource_eq]
    rfl
  · rw [exec_fadeInComplete s hr k c hk hc hp, State.completeFadeIn_record _ _ c (by exact hc) hp]
  · rw [exec_fadeOutComplete s hr k c hk hc hp, State.completeFadeOut_record _ _ c (by exact hc) hp]
  · rw [exec_masterFadeEnd s hr m hm]
    rfl
  · intro p hp hs x u
    have row := exec_plateHoldExpiry s hr p hp
    refine ⟨fun h => ?_, fun h he => ?_, fun h he => ?_⟩
    · rw [row, State.completePlate_next u p.val hs h]
      rfl
    · rw [row, State.completePlate_loop u p.val hs h he]
      rfl
    · rw [row, State.completePlate_ends u p.val hs h he]
      rfl
  · rw [exec_dissolveEnd s hr t ht, State.completeDissolve_dissolving _ _ (by exact hx)]
    rfl
  · rw [exec_linkWakeComplete s hr l hl, State.completeWake_waking _ _ (by exact hx)]
    rfl
  · intro l hc hl x u f
    have row := exec_linkIdleExpiry s hr l hl
    have canonical : Canonical u := (Kept.setWork _ _).canonical hc
    refine ⟨fun hi => ?_, fun hi => ?_⟩
    · rw [row, State.restLink_idle u l.val canonical hi]
      rfl
    · rw [row, State.restLink_sending u l.val canonical hi]
      rfl

end Sys2Proof.Machine
end

section
/-! PROOF. LOAD_CUE (R43, R170, R171): the action records that a part takes and writes, and the two kinds of part. -/

namespace Sys2Proof.Machine

/-! ### Writing action records (R167, R171) -/

theorem State.writeActions_frame (s : State) (ns : List Nat) (as : List Action) :
    s.writeActions ns as = { s with actions := (s.writeActions ns as).actions } := by
  induction ns generalizing s as with
  | nil => rfl
  | cons n ns ih =>
    cases as with
    | nil => rfl
    | cons a as =>
      rw [State.writeActions, ih]
      rfl

theorem State.action_writeActions_other (s : State) (ns : List Nat) (as : List Action) (r : Nat) (hr : r ∉ ns) :
    (s.writeActions ns as).action r = s.action r := by
  induction ns generalizing s as with
  | nil => rfl
  | cons n ns ih =>
    rw [List.mem_cons, not_or] at hr
    cases as with
    | nil => rfl
    | cons a as => rw [State.writeActions, ih _ _ hr.2, State.action_setAction_other _ _ _ _ hr.1]

/-- Records without a repeated number hold the actions in their order. -/
theorem State.action_writeActions (s : State) (ns : List Nat) (as : List Action) (hn : ns.Nodup) (j r : Nat) (a : Action)
    (hr : ns[j]? = some r) (ha : as[j]? = some a) : (s.writeActions ns as).action r = a := by
  induction ns generalizing s as j with
  | nil => simp at hr
  | cons n ns ih =>
    obtain ⟨fresh, rest⟩ := List.nodup_cons.1 hn
    cases as with
    | nil => simp at ha
    | cons b as =>
      rw [State.writeActions]
      cases j with
      | zero =>
        obtain rfl : n = r := by simpa using hr
        obtain rfl : b = a := by simpa using ha
        rw [State.action_writeActions_other _ _ _ _ fresh, State.action_setAction]
      | succ j => exact ih _ _ rest j (by simpa using hr) (by simpa using ha)

/-! ### The append of a part's actions (R171) -/

section
variable (s : State) (as : List Action)

theorem State.appendActions_frame :
    (s.appendActions as).1 =
      { s with actions := (s.appendActions as).1.actions, actionFree := s.actionFree.drop as.length } :=
  State.writeActions_frame { s with actionFree := s.actionFree.drop as.length } _ as

theorem State.appendActions_actionFree : (s.appendActions as).1.actionFree = s.actionFree.drop as.length := by
  rw [State.appendActions_frame]

/-- What an append leaves in the action records: those taken hold the part's actions, where none is taken twice, and the
others are as they were. -/
theorem State.appendActions_written :
    ((s.actionFree.take as.length).Nodup → ∀ (j r : Nat) (a : Action), (s.actionFree.take as.length)[j]? = some r →
      as[j]? = some a → (s.appendActions as).1.action r = a) ∧
    ∀ r, r ∉ s.actionFree.take as.length → (s.appendActions as).1.action r = s.action r :=
  ⟨fun hn j r a hr ha => State.action_writeActions _ _ _ hn j r a hr ha,
    fun r hr => State.action_writeActions_other _ _ _ r hr⟩

theorem State.appendActions_cue (c : Nat) : (s.appendActions as).1.cue c = s.cue c := by
  rw [State.appendActions_frame]
  rfl

end

/-! ### The two kinds of part -/

/-- A NEW part is the append on the state to which the cue's own records have returned, and the cue's new record. -/
theorem State.loadNew_eq (s : State) (c l : Nat) (tr : Trigger) (as : List Action) :
    s.loadNew c l tr as =
      (({ s with actionFree := s.actionFree ++ (s.cue c).chain }.appendActions as).1).setCue c
        { state := .loaded, list := l, trigger := tr, next := none,
          chain := (s.actionFree ++ (s.cue c).chain).take as.length, late := false } := rfl

theorem State.loadAppend_eq (s : State) (c : Nat) (as : List Action) :
    s.loadAppend c as =
      ((s.appendActions as).1).setCue c
        { s.cue c with chain := (s.cue c).chain ++ s.actionFree.take as.length } := rfl

/-- The parts of the state that a LOAD_CUE touches, when the part is appended to the records of `u` (R171). -/
theorem State.appendActions_setCue_frame (s u : State) (as : List Action) (c : Nat) (x : Cue)
    (h : u = { s with actionFree := u.actionFree }) :
    ((u.appendActions as).1).setCue c x =
      { s with
        cues := (((u.appendActions as).1).setCue c x).cues
        actions := (((u.appendActions as).1).setCue c x).actions
        actionFree := (((u.appendActions as).1).setCue c x).actionFree } := by
  have append := u.appendActions_frame as
  generalize (u.appendActions as).1 = v at append ⊢
  rw [append, h]
  rfl

/-! ### The checks (R170) -/

/-- The last checks pass where the actions are in range, the acting source may force if they need it, and there are
records enough. -/
theorem loadCueActions_accepts (s : State) (l own : Nat) (fields : List ActionField) (load : State → List Action → State)
    (c : Nat) (as : List Action) (ha : fields.mapM s.actionOf = some as)
    (hf : as.any Action.needsForce = true → (s.source (s.list l).acting).mayForce = true)
    (hr : as.length ≤ s.actionFree.length + own) :
    loadCueActions s l own fields load c = .accept (load s as) false ((load s as).loadCueFields c) := by
  have permitted : ¬ (as.any Action.needsForce = true ∧ (!(s.source (s.list l).acting).mayForce) = true) := by
    rintro ⟨needs, off⟩
    simp [hf needs] at off
  rw [loadCueActions, ha]
  simp only [if_neg permitted, if_neg (Nat.not_lt.2 hr)]

section
variable (h : Header) (b : LoadCueBody) (s : State) (l : Nat) (hc : b.cue.toNat ≤ 511) (hm : b.mode.toNat ≤ 1)
  (hl : listOf b.list = some l) (he : s.mayEdit h l = true) (hi : (s.cue b.cue.toNat).inList = false)
  (h1 : 1 ≤ b.actions.length) (h32 : b.actions.length ≤ 32)
include hc hm hl he hi h1 h32

theorem loadCueOwn_new (tf : TriggerField) (tr : Trigger) (ht : b.trigger = some tf) (htr : triggerOf tf = some tr) :
    loadCueOwn h b s =
      loadCueActions s l (s.cue b.cue.toNat).chain.length b.actions (fun s as => s.loadNew b.cue.toNat l tr as)
        b.cue.toNat := by
  have inRange : ¬ (b.cue.toNat > 511 ∨ b.mode.toNat > 1 ∨ b.actions.length = 0 ∨ b.actions.length > 32) := by omega
  simp only [loadCueOwn, hl, if_neg inRange, ht, htr]
  simp [he, hi]

theorem loadCueOwn_append (ht : b.trigger = none) (hs : (s.cue b.cue.toNat).state = .loaded)
    (hx : (s.cue b.cue.toNat).list = l) (hn : (s.cue b.cue.toNat).chain.length + b.actions.length ≤ 64) :
    loadCueOwn h b s =
      loadCueActions s l 0 b.actions (fun s as => s.loadAppend b.cue.toNat as) b.cue.toNat := by
  have inRange : ¬ (b.cue.toNat > 511 ∨ b.mode.toNat > 1 ∨ b.actions.length = 0 ∨ b.actions.length > 32) := by omega
  simp only [loadCueOwn, hl, if_neg inRange, ht]
  simp [he, hi, hs, hx, Nat.not_lt.2 hn]

end

/-- Settles O35: the checks pass, and either kind of part is an append and the cue's record. -/
theorem loadCueCompletes : Obligations.LoadCueCompletes := by
  intro s h b l as adm hc hm hl he hi h1 h32 ha hf x written
  have edits : (s.met h).mayEdit h l = true := by rwa [State.met_mayEdit]
  have unlisted : ((s.met h).cue b.cue.toNat).inList = false := by rwa [State.met_cue]
  have actions : b.actions.mapM (s.met h).actionOf = some as := by rwa [funext (s.met_actionOf h)]
  have force : as.any Action.needsForce = true →
      ((s.met h).source ((s.met h).list l).acting).mayForce = true := by
    rwa [State.met_list, State.met_source_mayForce]
  refine ⟨fun tf tr ht htr hroom => ?_, fun ht hs hx hn hroom => ?_⟩
  · have own := loadCueOwn_new h b (s.met h) l hc hm hl edits unlisted h1 h32 tf tr ht htr
    rw [loadCueActions_accepts _ _ _ _ _ _ as actions force (by simpa using hroom)] at own
    refine ⟨_, exec_accepted s _ h _ false _ rfl adm own, ?_⟩
    simp only [State.loadNew_eq, State.met_actionFree, State.met_cue]
    have wrote := State.appendActions_written { s.met h with actionFree := s.actionFree ++ x.chain } as
    refine ⟨State.cue_setCue _ _ _, State.appendActions_actionFree _ as, ⟨wrote.1, fun r hr => ?_⟩, fun c hne => ?_,
      State.appendActions_setCue_frame _ _ _ _ _ rfl⟩
    · exact (wrote.2 r hr).trans (s.met_action h r)
    · rw [State.cue_setCue_other _ _ _ _ hne, State.appendActions_cue]
      exact s.met_cue h c
  · have own := loadCueOwn_append h b (s.met h) l hc hm hl edits unlisted h1 h32 ht (by rwa [State.met_cue])
      (by rwa [State.met_cue]) (by rwa [State.met_cue])
    rw [loadCueActions_accepts _ _ _ _ _ _ as actions force (by simpa using hroom)] at own
    refine ⟨_, exec_accepted s _ h _ false _ rfl adm own, ?_⟩
    simp only [State.loadAppend_eq, State.met_actionFree, State.met_cue]
    have wrote := (s.met h).appendActions_written as
    rw [State.met_actionFree] at wrote
    refine ⟨State.cue_setCue _ _ _, ?_, ⟨wrote.1, fun r hr => ?_⟩, fun c hne => ?_,
      State.appendActions_setCue_frame _ _ _ _ _ rfl⟩
    · have free := (s.met h).appendActions_actionFree as
      rwa [State.met_actionFree] at free
    · exact (wrote.2 r hr).trans (s.met_action h r)
    · rw [State.cue_setCue_other _ _ _ _ hne, State.appendActions_cue]
      exact s.met_cue h c

end Sys2Proof.Machine
end

section
/-! PROOF. SOFT_CLEAR's beginning (R194) and the return of a slot to FREE (R75). The blocks and the records are cleared
first; what then goes on of the frame start's work is next to nothing, since no fade, master, plate or dissolve is left to
count, and `Quiet` names it. -/

namespace Sys2Proof.Machine

/-! ### A slot that returns to FREE (R75) -/

section
variable (s : State) (k : Nat) (c : Contribution) (hr : (s.slot k).record = some c)
include hr

/-- Everything that the return of a slot changes. -/
theorem State.free_frame :
    s.free k =
      { s with
        slots := s.slots.set Slot.por k ⟨((s.slot k).gen + 1) % 256, none⟩
        names := if c.name ≠ 0 ∧ (c.phase = .fadingIn ∨ c.phase = .held) then
          s.names.set Name.por (c.owner * 4096 + c.name) none else s.names
        poolFree := s.poolFree ++ c.chain
        sources := s.sources.set Source.por c.owner { s.source c.owner with live := (s.source c.owner).live - 1 } } := by
  rw [State.free, hr]
  dsimp only
  split <;> rfl

theorem State.free_slot_self : (s.free k).slot k = ⟨((s.slot k).gen + 1) % 256, none⟩ := by
  rw [s.free_frame k c hr]
  exact Table.get_set_self _ _ _ _

theorem State.free_source (n : Nat) :
    (s.free k).source n =
      if n = c.owner then { s.source c.owner with live := (s.source c.owner).live - 1 } else s.source n := by
  rw [s.free_frame k c hr]
  exact Table.get_set _ _ _ _ _

theorem State.free_names_indexed (hi : c.name ≠ 0 ∧ (c.phase = .fadingIn ∨ c.phase = .held)) :
    (s.free k).names = s.names.set Name.por (c.owner * 4096 + c.name) none := by
  rw [s.free_frame k c hr]
  exact if_pos hi

theorem State.free_names_unindexed (hi : ¬ (c.name ≠ 0 ∧ (c.phase = .fadingIn ∨ c.phase = .held))) :
    (s.free k).names = s.names := by
  rw [s.free_frame k c hr]
  exact if_neg hi

/-- Every other name of the Name Index stands (R66). -/
theorem State.free_named_other (hn : c.name < 4096) (o n : Nat) (h : n < 4096) (ho : (o, n) ≠ (c.owner, c.name)) :
    (s.free k).named o n = s.named o n := by
  by_cases hi : c.name ≠ 0 ∧ (c.phase = .fadingIn ∨ c.phase = .held)
  · have other : o * 4096 + n ≠ c.owner * 4096 + c.name := fun e => ho (Prod.ext (by simp only; omega) (by simp only; omega))
    rw [State.named, s.free_names_indexed k c hr hi]
    exact Table.get_set_other _ _ _ _ _ other
  · rw [State.named, s.free_names_unindexed k c hr hi]
    rfl

end

/-- A FREE slot's handles match nothing (R54). -/
theorem State.matching_free (s : State) (k g : Nat) (h : (s.slot k).record = none) : s.matching ⟨k, g⟩ = none := by
  unfold State.matching
  split
  · exact h
  · rfl

/-! ### The records that a SOFT_CLEAR clears, at their defaults -/

theorem Source.softClear_por (n : Nat) : (Source.por n).softClear = Source.por n := by
  unfold Source.por
  dsimp only
  repeat' split
  all_goals rfl

theorem Source.por_live (n : Nat) : (Source.por n).live = 0 := by
  unfold Source.por
  dsimp only
  repeat' split
  all_goals rfl

theorem Slot.softClear_record (x : Slot) : x.softClear.record = none := by
  unfold Slot.softClear
  split
  · rfl
  · rename_i h
    simpa using h

/-! ### Plates under SOFT_CLEAR (R144) -/

/-- A plate's record under SOFT_CLEAR. -/
def Plate.softClear (x : Plate) : Plate :=
  if x.state = .undefined then { x with loadOpen := false, clip := if x.loadOpen then [] else x.clip, late := 0 }
  else { x with
    state := .stopped, loadOpen := false, image := 0, held := 0, late := 0
    cleared := x.cleared || x.state == .fault || (x.image, x.held) != (0, 0) }

/-- The descriptors that a plate's open load gives back. -/
def Plate.returned (x : Plate) : List Nat := if x.state = .undefined ∧ x.loadOpen = true then x.clip else []

theorem State.softClearPlate_eq (s : State) (p : Nat) :
    s.softClearPlate p =
      { s with descriptorFree := s.descriptorFree ++ (s.plate p).returned }.setPlate p (s.plate p).softClear := by
  unfold State.softClearPlate Plate.softClear Plate.returned
  dsimp only
  by_cases hu : (s.plate p).state = .undefined
  · cases hl : (s.plate p).loadOpen with
    | true => simp [hu]
    | false =>
      have same : ({ s.plate p with loadOpen := false } : Plate) = s.plate p := by rw [← hl]
      simp [hu]
  · simp [hu]

theorem State.each_softClearPlate_frame (s : State) (l : List Nat) :
    s.each State.softClearPlate l =
      { s with
        plates := (s.each State.softClearPlate l).plates
        descriptorFree := (s.each State.softClearPlate l).descriptorFree } := by
  induction l generalizing s with
  | nil => rfl
  | cons p ps ih =>
    rw [State.each, ih, State.softClearPlate_eq]
    rfl

/-- Each plate of the list is cleared once, and what the open loads give back joins the free list in the list's order. -/
theorem State.each_softClearPlate (s : State) (l : List Nat) (hl : l.Nodup) :
    (∀ p, (s.each State.softClearPlate l).plate p = if p ∈ l then (s.plate p).softClear else s.plate p) ∧
      (s.each State.softClearPlate l).descriptorFree =
        s.descriptorFree ++ l.flatMap fun p => (s.plate p).returned := by
  induction l generalizing s with
  | nil => simp [State.each]
  | cons k ks ih =>
    obtain ⟨fresh, rest⟩ := List.nodup_cons.1 hl
    obtain ⟨plates, free⟩ := ih (s.softClearPlate k) rest
    have other (p : Nat) (hp : p ≠ k) : (s.softClearPlate k).plate p = s.plate p := by
      rw [State.softClearPlate_eq, State.plate_setPlate_other _ _ _ _ hp]
      rfl
    have own : (s.softClearPlate k).plate k = (s.plate k).softClear := by
      rw [State.softClearPlate_eq, State.plate_setPlate]
    rw [State.each]
    refine ⟨fun p => ?_, ?_⟩
    · rw [plates]
      by_cases hp : p = k
      · subst hp
        simp [fresh, own]
      · simp [hp, other p hp]
    · have same : ks.flatMap (fun p => ((s.softClearPlate k).plate p).returned) =
          ks.flatMap fun p => (s.plate p).returned := by
        rw [List.flatMap_def, List.flatMap_def]
        exact congrArg _ (List.map_congr_left fun p hp => by rw [other p fun e => fresh (e ▸ hp)])
      rw [free, same, State.softClearPlate_eq]
      simp

/-! ### The blocks (R194) -/

section
variable (s : State)

theorem State.clearBlocks_frame :
    s.clearBlocks =
      { s with
        sources := s.sources.mapListed Source.por fun _ x => x.softClear
        lists := s.lists.mapListed CueList.por fun _ x => x.softClear
        cues := s.cues.mapListed Cue.por fun _ x => x.softClear
        events := .empty
        lines := s.lines.mapListed Line.por fun _ x => x.softClear
        inputs := s.inputs.mapListed Input.por fun _ x => x.softClear
        tiles := s.tiles.mapListed Tile.por fun _ x => x.softClear
        links := s.links.mapListed Link.por fun _ x => x.softClear
        work := { s.work with lossDue := [], platesDue := [], dissolvesDue := [], evaluation := none }
        plates := s.clearBlocks.plates
        descriptorFree := s.clearBlocks.descriptorFree } :=
  State.each_softClearPlate_frame _ _

theorem State.clearBlocks_plate (p : Nat) (hp : p < 8) : s.clearBlocks.plate p = (s.plate p).softClear :=
  ((State.each_softClearPlate _ _ List.nodup_range).1 p).trans (if_pos (List.mem_range.2 hp))

theorem State.clearBlocks_descriptorFree :
    s.clearBlocks.descriptorFree = s.descriptorFree ++ (List.range 8).flatMap fun p => (s.plate p).returned :=
  (State.each_softClearPlate _ _ List.nodup_range).2

theorem State.clearBlocks_phase : s.clearBlocks.work.phase = s.work.phase := by rw [s.clearBlocks_frame]

variable (hc : Canonical s)
include hc

theorem State.clearBlocks_source (n : Nat) : s.clearBlocks.source n = (s.source n).softClear := by
  rw [s.clearBlocks_frame]
  exact Table.get_mapListed s.sources Source.por (fun _ x => x.softClear) n hc.sources (Source.softClear_por n)

theorem State.clearBlocks_list (l : Nat) : s.clearBlocks.list l = (s.list l).softClear := by
  rw [s.clearBlocks_frame]
  exact Table.get_mapListed s.lists CueList.por (fun _ x => x.softClear) l hc.lists rfl

theorem State.clearBlocks_cue (c : Nat) : s.clearBlocks.cue c = (s.cue c).softClear := by
  rw [s.clearBlocks_frame]
  exact Table.get_mapListed s.cues Cue.por (fun _ x => x.softClear) c hc.cues rfl

theorem State.clearBlocks_line (l : Nat) : s.clearBlocks.line l = (s.line l).softClear := by
  rw [s.clearBlocks_frame]
  exact Table.get_mapListed s.lines Line.por (fun _ x => x.softClear) l hc.lines rfl

theorem State.clearBlocks_input (i : Nat) : s.clearBlocks.input i = (s.input i).softClear := by
  rw [s.clearBlocks_frame]
  exact Table.get_mapListed s.inputs Input.por (fun _ x => x.softClear) i hc.inputs rfl

theorem State.clearBlocks_tile (t : Nat) : s.clearBlocks.tile t = (s.tile t).softClear := by
  rw [s.clearBlocks_frame]
  exact Table.get_mapListed s.tiles Tile.por (fun _ x => x.softClear) t hc.tiles rfl

theorem State.clearBlocks_link (l : Nat) : s.clearBlocks.link l = (s.link l).softClear := by
  rw [s.clearBlocks_frame]
  exact Table.get_mapListed s.links Link.por (fun _ x => x.softClear) l hc.links rfl

end

/-! ### The records (R194, R79, R95, R118) -/

theorem State.clearRecords_slot (s : State) (hc : Canonical s) (k : Nat) : s.clearRecords.slot k = (s.slot k).softClear :=
  Table.get_mapListed s.slots Slot.por (fun _ x => x.softClear) k hc.slots rfl

theorem State.clearRecords_source (s : State) (hc : Canonical s) (n : Nat) :
    s.clearRecords.source n = { s.source n with live := 0 } :=
  Table.get_mapListed s.sources Source.por (fun _ x => { x with live := 0 }) n hc.sources (by
    rw [← Source.por_live n])

theorem State.clearRecords_frame (s : State) :
    s.clearRecords =
      { s with
        softClear := s.clearRecords.softClear, slots := s.clearRecords.slots, names := s.clearRecords.names
        poolFree := s.clearRecords.poolFree, sequence := s.clearRecords.sequence, sources := s.clearRecords.sources
        queue := s.clearRecords.queue, arrival := s.clearRecords.arrival, lastFailure := s.clearRecords.lastFailure
        forces := s.clearRecords.forces, freezes := s.clearRecords.freezes, masters := s.clearRecords.masters
        work := s.clearRecords.work } := by
  unfold State.clearRecords
  dsimp only

theorem State.clearRecords_master (s : State) (m : Nat) : s.clearRecords.master m = Master.por m := rfl

theorem State.clearRecords_plate (s : State) (p : Nat) : s.clearRecords.plate p = s.plate p := rfl

theorem State.clearRecords_tile (s : State) (t : Nat) : s.clearRecords.tile t = s.tile t := rfl

/-! ### What goes on behind a SOFT_CLEAR (log 4) -/

/-- `t` is `s` but for what wakes counted and the beginning of a render pass change: no slot and no master, of the links
the wakes alone, of the tiles the stores alone, of the plates the mark of the fetch unit alone. -/
structure Quiet (s t : State) : Prop where
  frame : t = { s with
        plates := t.plates
        tiles := t.tiles
        links := t.links
        inputs := t.inputs
        fetches := t.fetches
        wltSample := t.wltSample
        work := t.work }
  links : ∀ l, (t.link l).slips = (s.link l).slips ∧ (t.link l).drops = (s.link l).drops
  tiles : ∀ k, (t.tile k).fromSource = (s.tile k).fromSource ∧ (t.tile k).elapsed = (s.tile k).elapsed ∧
    (t.tile k).fetchLate = (s.tile k).fetchLate
  plates : ∀ p, t.plate p = { s.plate p with cleared := (t.plate p).cleared }

theorem Quiet.refl (s : State) : Quiet s s := ⟨rfl, fun _ => ⟨rfl, rfl⟩, fun _ => ⟨rfl, rfl, rfl⟩, fun _ => rfl⟩

theorem Quiet.trans {s t u : State} (h : Quiet s t) (g : Quiet t u) : Quiet s u := by
  refine ⟨by rw [g.frame]; rw [h.frame], fun l => ?_, fun k => ?_, fun p => ?_⟩
  · exact ⟨(g.links l).1.trans (h.links l).1, (g.links l).2.trans (h.links l).2⟩
  · obtain ⟨from1, elapsed1, late1⟩ := h.tiles k
    obtain ⟨from2, elapsed2, late2⟩ := g.tiles k
    exact ⟨from2.trans from1, elapsed2.trans elapsed1, late2.trans late1⟩
  · rw [g.plates p, h.plates p]

theorem Quiet.each {f : State → Nat → State} (h : ∀ s k, Quiet s (f s k)) (s : State) (l : List Nat) :
    Quiet s (s.each f l) := by
  induction l generalizing s with
  | nil => exact .refl s
  | cons k ks ih => exact (h s k).trans (ih _)

theorem Quiet.foldl {f : State → Nat → State} (h : ∀ s k, Quiet s (f s k)) (s : State) (l : List Nat) :
    Quiet s (l.foldl f s) := by
  induction l generalizing s with
  | nil => exact .refl s
  | cons k ks ih => exact (h s k).trans (ih _)

/-- A change of nothing but the inputs, the fetch list, the WLT sample and the work marks. -/
theorem Quiet.of_marks {s t : State}
    (h : t = { s with inputs := t.inputs, fetches := t.fetches, wltSample := t.wltSample, work := t.work }) :
    Quiet s t := by
  refine ⟨?_, fun l => ?_, fun k => ?_, fun p => ?_⟩
  all_goals rw [h]
  · exact ⟨rfl, rfl⟩
  · exact ⟨rfl, rfl, rfl⟩
  · rfl

theorem Quiet.setLink (s : State) (l : Nat) (x : Link) (hs : x.slips = (s.link l).slips)
    (hd : x.drops = (s.link l).drops) : Quiet s (s.setLink l x) := by
  refine ⟨rfl, fun j => ?_, fun _ => ⟨rfl, rfl, rfl⟩, fun _ => rfl⟩
  by_cases hj : j = l
  · subst hj
    rw [State.link_setLink]
    exact ⟨hs, hd⟩
  · rw [State.link_setLink_other _ _ _ _ hj]
    exact ⟨rfl, rfl⟩

theorem Quiet.setTile (s : State) (k : Nat) (x : Tile) (hf : x.fromSource = (s.tile k).fromSource)
    (he : x.elapsed = (s.tile k).elapsed) (hl : x.fetchLate = (s.tile k).fetchLate) : Quiet s (s.setTile k x) := by
  refine ⟨rfl, fun _ => ⟨rfl, rfl⟩, fun j => ?_, fun _ => rfl⟩
  by_cases hj : j = k
  · subst hj
    rw [State.tile_setTile]
    exact ⟨hf, he, hl⟩
  · rw [State.tile_setTile_other _ _ _ _ hj]
    exact ⟨rfl, rfl, rfl⟩

theorem Quiet.countWake (s : State) (l : Nat) : Quiet s (s.countWake l) := by
  unfold State.countWake
  dsimp only
  split
  · exact .refl s
  · split
    · exact .setLink s l _ rfl rfl
    · exact .of_marks rfl

theorem Quiet.addFetch (s : State) (t p : Nat) : Quiet s (s.addFetch t p) := by
  unfold State.addFetch
  dsimp only
  split
  · exact (Quiet.of_marks rfl).trans (Quiet.setTile _ _ _ rfl rfl rfl)
  · exact .of_marks rfl

theorem Quiet.formFetchList (s : State) (hc : Canonical s) : Quiet s s.formFetchList := by
  unfold State.formFetchList State.addFetches
  refine Quiet.trans (t := { s with
    fetches := [], plates := s.plates.mapListed Plate.por fun _ x => { x with cleared := false } }) ?_
    (Quiet.foldl (fun u t => Quiet.foldl (fun v p => Quiet.addFetch v t p) u _) _ _)
  refine ⟨rfl, fun _ => ⟨rfl, rfl⟩, fun _ => ⟨rfl, rfl, rfl⟩, fun p => ?_⟩
  have marked := Table.get_mapListed s.plates Plate.por (fun _ x => { x with cleared := false }) p hc.plates rfl
  exact marked.trans (congrArg (fun b => { s.plate p with cleared := b }) (congrArg Plate.cleared marked).symm)

theorem Quiet.beginRender (s : State) (hc : Canonical s) : Quiet s s.beginRender := by
  have sampled : Quiet s (s.each State.sampleInput (List.range 4)) := .each (fun t i => .of_marks rfl) s _
  have canonical : Canonical (s.each State.sampleInput (List.range 4)) :=
    (Kept.each (f := State.sampleInput) (fun t i => Kept.setInput t i _) s _).canonical hc
  exact (sampled.trans (Quiet.formFetchList _ canonical)).trans (.of_marks rfl)

theorem State.each_still {f : State → Nat → State} (s : State) (n : Nat) (h : ∀ k < n, f s k = s) :
    s.each f (List.range n) = s := by
  suffices all : ∀ l : List Nat, (∀ k ∈ l, k < n) → s.each f l = s from all _ fun k hk => List.mem_range.1 hk
  intro l hl
  induction l with
  | nil => rfl
  | cons k ks ih => rw [State.each, h k (hl k (by simp)), ih fun j hj => hl j (by simp [hj])]

/-- Where a frame start finds no fade, no master, no plate and no dissolve to count, it counts the wakes alone. -/
theorem State.beginCounting_wakes (s : State) (hf : ∀ k < 192, (s.slot k).record = none)
    (hm : ∀ m < 4, (s.master m).state = .steady) (hp : ∀ p < 8, (s.plate p).state ≠ .playing)
    (ht : ∀ t < 64, (s.tile t).fromSource = none) :
    s.beginCounting = (s.setWork { s.work with phase := .counting }).each State.countWake (List.range 4) := by
  have counts (u : State) (hf : ∀ k < 192, (u.slot k).record = none) (hm : ∀ m < 4, (u.master m).state = .steady)
      (hp : ∀ p < 8, (u.plate p).state ≠ .playing) (ht : ∀ t < 64, (u.tile t).fromSource = none) :
      (((u.each State.countFade (List.range 192)).each State.countMaster (List.range 4)).each State.countPlate
        (List.range 8)).each State.countDissolve (List.range 64) = u := by
    rw [u.each_still 192 fun k hk => State.countFade_free u k (hf k hk),
      u.each_still 4 fun m h => State.countMaster_steady u m (hm m h),
      u.each_still 8 fun p h => State.countPlate_rests u p (.inl (hp p h)),
      u.each_still 64 fun t h => if_pos (Option.isNone_iff_eq_none.2 (ht t h))]
  unfold State.beginCounting
  dsimp only
  rw [counts (s.setWork { s.work with phase := .counting }) hf hm hp ht]

theorem Quiet.beginCounting (s : State) (hf : ∀ k < 192, (s.slot k).record = none)
    (hm : ∀ m < 4, (s.master m).state = .steady) (hp : ∀ p < 8, (s.plate p).state ≠ .playing)
    (ht : ∀ t < 64, (s.tile t).fromSource = none) : Quiet s s.beginCounting := by
  have marked : Quiet s (s.setWork { s.work with phase := .counting }) := .of_marks rfl
  rw [s.beginCounting_wakes hf hm hp ht]
  exact marked.trans (.each Quiet.countWake _ _)

theorem Quiet.advance (s : State) (hc : Canonical s) (hf : ∀ k < 192, (s.slot k).record = none)
    (hm : ∀ m < 4, (s.master m).state = .steady) (hp : ∀ p < 8, (s.plate p).state ≠ .playing)
    (ht : ∀ t < 64, (s.tile t).fromSource = none) : Quiet s s.advance := by
  have count : Quiet s s.tryCount := by
    unfold State.tryCount
    split
    · exact .beginCounting s hf hm hp ht
    · exact .refl s
  refine count.trans ?_
  unfold State.advance State.tryRender
  split
  · exact .beginRender _ ((Kept.tryCount s).canonical hc)
  · exact .refl _

/-- With a render in progress, or with no frame work outstanding, nothing goes on. -/
theorem State.advance_still (s : State) (h : s.work.phase = .rendering ∨ s.work.phase = .idle) : s.advance = s := by
  have count : s.tryCount = s := if_neg (by rcases h with h | h <;> simp [h])
  rw [State.advance, count]
  exact if_neg (by rcases h with h | h <;> simp [h])

/-! ### The records, at once or at the render complete -/

/-- The record clear of a SOFT_CLEAR's beginning: with a render in progress it waits. -/
def State.clearOrWait (s : State) : State :=
  if s.work.phase = .rendering then { s with softClear := .waiting } else s.clearRecords

theorem State.beginSoftClear_eq (s : State) : s.beginSoftClear = s.clearBlocks.clearOrWait.advance := by
  unfold State.beginSoftClear
  generalize s.clearBlocks = u
  unfold State.clearOrWait
  dsimp only
  split
  · rename_i h
    rw [State.advance_still _ (.inl (by exact h))]
  · rfl

section
variable (s : State)

theorem State.clearOrWait_waits (h : s.work.phase = .rendering) : s.clearOrWait = { s with softClear := .waiting } :=
  if_pos h

theorem State.clearOrWait_clears (h : s.work.phase ≠ .rendering) : s.clearOrWait = s.clearRecords := if_neg h

/-- The items that the record clear leaves, whether it waits or not. -/
theorem State.clearOrWait_frame :
    s.clearOrWait =
      { s with
        softClear := s.clearOrWait.softClear, slots := s.clearOrWait.slots, names := s.clearOrWait.names
        poolFree := s.clearOrWait.poolFree, sequence := s.clearOrWait.sequence, sources := s.clearOrWait.sources
        queue := s.clearOrWait.queue, arrival := s.clearOrWait.arrival, lastFailure := s.clearOrWait.lastFailure
        forces := s.clearOrWait.forces, freezes := s.clearOrWait.freezes, masters := s.clearOrWait.masters
        work := s.clearOrWait.work } := by
  by_cases h : s.work.phase = .rendering
  · rw [s.clearOrWait_waits h]
  · rw [s.clearOrWait_clears h]
    exact s.clearRecords_frame

theorem State.clearOrWait_input (i : Nat) : s.clearOrWait.input i = s.input i := by
  rw [s.clearOrWait_frame]
  rfl

theorem State.clearOrWait_phase : s.clearOrWait.work.phase = s.work.phase := by
  unfold State.clearOrWait
  split <;> rfl

variable (hc : Canonical s)
include hc

theorem State.clearOrWait_source (n : Nat) :
    s.clearOrWait.source n = { s.source n with live := (s.clearOrWait.source n).live } := by
  by_cases h : s.work.phase = .rendering
  · rw [s.clearOrWait_waits h]
    rfl
  · rw [s.clearOrWait_clears h, s.clearRecords_source hc]

/-- Behind a clearing of blocks and records, what goes on is quiet. -/
theorem Quiet.advance_clearOrWait (hp : ∀ p < 8, (s.plate p).state ≠ .playing)
    (ht : ∀ t < 64, (s.tile t).fromSource = none) : Quiet s.clearOrWait s.clearOrWait.advance := by
  by_cases h : s.work.phase = .rendering
  · rw [State.advance_still _ (.inl (s.clearOrWait_phase.trans h))]
    exact .refl _
  · rw [s.clearOrWait_clears h]
    refine Quiet.advance _ ((Kept.clearRecords s).canonical hc) (fun k _ => ?_) (fun m _ => ?_) (fun p h => ?_) fun t h => ?_
    · rw [s.clearRecords_slot hc, Slot.softClear_record]
    · rw [s.clearRecords_master, Master.por]
    · rw [s.clearRecords_plate]
      exact hp p h
    · rw [s.clearRecords_tile]
      exact ht t h

end

/-! ### The beginning of a SOFT_CLEAR -/

theorem Plate.softClear_not_playing (x : Plate) : x.softClear.state ≠ .playing := by
  unfold Plate.softClear
  split
  · rename_i h
    simp [h]
  · simp

section
variable (s : State) (hc : Canonical s)
include hc

theorem State.clearBlocks_canonical : Canonical s.clearBlocks := (Kept.clearBlocks s).canonical hc

theorem State.beginSoftClear_quiet : Quiet s.clearBlocks.clearOrWait s.beginSoftClear := by
  rw [s.beginSoftClear_eq]
  refine Quiet.advance_clearOrWait _ (s.clearBlocks_canonical hc) (fun p hp => ?_) fun t _ => ?_
  · rw [s.clearBlocks_plate p hp]
    exact Plate.softClear_not_playing _
  · rw [s.clearBlocks_tile hc]
    rfl

end

/-- What every SOFT_CLEAR's beginning leaves of the blocks it clears at once, whatever waits and whatever goes on. -/
structure BlocksCleared (s t : State) : Prop where
  events : t.events = .empty
  source : ∀ n, (t.source n).state = .live ∧ (t.source n).counter = (s.source n).reload ∧ (t.source n).applyFails = 0
  list : ∀ l, t.list l = (s.list l).softClear
  line : ∀ l, t.line l = (s.line l).softClear
  link : ∀ l, (t.link l).slips = 0 ∧ (t.link l).drops = 0
  tile : ∀ k, (t.tile k).fromSource = none ∧ (t.tile k).elapsed = 0 ∧ (t.tile k).fetchLate = 0
  plate : ∀ p < 8, t.plate p = { (s.plate p).softClear with cleared := (t.plate p).cleared }
  descriptorFree : t.descriptorFree = s.descriptorFree ++ (List.range 8).flatMap fun p => (s.plate p).returned
  cue : ∀ c, t.cue c = (s.cue c).softClear

theorem State.clearBlocks_cleared (s : State) (hc : Canonical s) : BlocksCleared s s.clearBlocks where
  events := by rw [s.clearBlocks_frame]
  source n := by
    rw [s.clearBlocks_source hc]
    exact ⟨rfl, rfl, rfl⟩
  list := s.clearBlocks_list hc
  line := s.clearBlocks_line hc
  link l := by
    rw [s.clearBlocks_link hc]
    exact ⟨rfl, rfl⟩
  tile k := by
    rw [s.clearBlocks_tile hc]
    exact ⟨rfl, rfl, rfl⟩
  plate p hp := by rw [s.clearBlocks_plate p hp]
  descriptorFree := s.clearBlocks_descriptorFree
  cue := s.clearBlocks_cue hc

theorem BlocksCleared.clearOrWait {s u : State} (h : BlocksCleared s u) (hc : Canonical u) :
    BlocksCleared s u.clearOrWait where
  events := (congrArg State.events u.clearOrWait_frame).trans h.events
  source n := by
    rw [u.clearOrWait_source hc]
    exact h.source n
  list l := (congrArg (fun v : State => v.list l) u.clearOrWait_frame).trans (h.list l)
  line l := (congrArg (fun v : State => v.line l) u.clearOrWait_frame).trans (h.line l)
  link l := by
    rw [u.clearOrWait_frame]
    exact h.link l
  tile k := by
    rw [u.clearOrWait_frame]
    exact h.tile k
  plate p hp := by
    rw [u.clearOrWait_frame]
    exact h.plate p hp
  descriptorFree := (congrArg State.descriptorFree u.clearOrWait_frame).trans h.descriptorFree
  cue c := (congrArg (fun v : State => v.cue c) u.clearOrWait_frame).trans (h.cue c)

theorem BlocksCleared.quiet {s u t : State} (h : BlocksCleared s u) (hq : Quiet u t) : BlocksCleared s t where
  events := (congrArg State.events hq.frame).trans h.events
  source n := by
    rw [hq.frame]
    exact h.source n
  list l := (congrArg (fun v : State => v.list l) hq.frame).trans (h.list l)
  line l := (congrArg (fun v : State => v.line l) hq.frame).trans (h.line l)
  link l := by
    rw [(hq.links l).1, (hq.links l).2]
    exact h.link l
  tile k := by
    obtain ⟨fromSource, elapsed, late⟩ := hq.tiles k
    rw [fromSource, elapsed, late]
    exact h.tile k
  plate p hp := by rw [hq.plates p, h.plate p hp]
  descriptorFree := (congrArg State.descriptorFree hq.frame).trans h.descriptorFree
  cue c := (congrArg (fun v : State => v.cue c) hq.frame).trans (h.cue c)

/-- The records that the render reads, cleared (R194, R79, R95, R118). -/
structure RecordsCleared (t : State) : Prop where
  softClear : t.softClear = .cleared
  queue : t.queue = []
  slots : ∀ k, (t.slot k).record = none
  lastFailure : t.lastFailure = none
  live : ∀ n, (t.source n).live = 0
  forces : t.forces = .empty
  freezes : t.freezes = .empty
  masters : t.masters = .empty
  poolFree : t.poolFree = List.range 1024
  sequence : t.sequence = 0
  arrival : t.arrival = 0

theorem State.clearRecords_cleared (s : State) (hc : Canonical s) : RecordsCleared s.clearRecords where
  softClear := rfl
  queue := rfl
  slots k := by rw [s.clearRecords_slot hc, Slot.softClear_record]
  lastFailure := rfl
  live n := by rw [s.clearRecords_source hc]
  forces := rfl
  freezes := rfl
  masters := rfl
  poolFree := by rw [State.clearRecords]
  sequence := rfl
  arrival := rfl

theorem RecordsCleared.quiet {u t : State} (h : RecordsCleared u) (hq : Quiet u t) : RecordsCleared t where
  softClear := (congrArg State.softClear hq.frame).trans h.softClear
  queue := (congrArg State.queue hq.frame).trans h.queue
  slots k := (congrArg (fun v : State => (v.slot k).record) hq.frame).trans (h.slots k)
  lastFailure := (congrArg State.lastFailure hq.frame).trans h.lastFailure
  live n := (congrArg (fun v : State => (v.source n).live) hq.frame).trans (h.live n)
  forces := (congrArg State.forces hq.frame).trans h.forces
  freezes := (congrArg State.freezes hq.frame).trans h.freezes
  masters := (congrArg State.masters hq.frame).trans h.masters
  poolFree := (congrArg State.poolFree hq.frame).trans h.poolFree
  sequence := (congrArg State.sequence hq.frame).trans h.sequence
  arrival := (congrArg State.arrival hq.frame).trans h.arrival

section
variable (s : State)

/-- With a render in progress, or with no frame work outstanding, nothing goes on behind a SOFT_CLEAR's beginning. -/
theorem State.beginSoftClear_still (h : s.work.phase = .rendering ∨ s.work.phase = .idle) :
    s.beginSoftClear = s.clearBlocks.clearOrWait := by
  rw [s.beginSoftClear_eq]
  have phase := s.clearBlocks.clearOrWait_phase.trans s.clearBlocks_phase
  exact State.advance_still _ (by rwa [phase])

theorem State.beginSoftClear_waits (h : s.work.phase = .rendering) :
    s.beginSoftClear = { s.clearBlocks with softClear := .waiting } := by
  rw [s.beginSoftClear_still (.inl h), State.clearOrWait_waits _ (s.clearBlocks_phase.trans h)]

variable (hc : Canonical s)
include hc

theorem State.beginSoftClear_blocks : BlocksCleared s s.beginSoftClear :=
  ((s.clearBlocks_cleared hc).clearOrWait (s.clearBlocks_canonical hc)).quiet (s.beginSoftClear_quiet hc)

theorem State.beginSoftClear_records (h : s.work.phase ≠ .rendering) : RecordsCleared s.beginSoftClear := by
  have quiet := s.beginSoftClear_quiet hc
  rw [State.clearOrWait_clears _ (by rwa [s.clearBlocks_phase])] at quiet
  exact (State.clearRecords_cleared _ (s.clearBlocks_canonical hc)).quiet quiet

theorem State.beginSoftClear_input (h : s.work.phase = .rendering ∨ s.work.phase = .idle) (i : Nat) :
    s.beginSoftClear.input i = (s.input i).softClear := by
  rw [s.beginSoftClear_still h, State.clearOrWait_input, s.clearBlocks_input hc]

end

theorem Plate.softClear_counts (x : Plate) : x.softClear.late = 0 ∧ x.softClear.loadOpen = false := by
  unfold Plate.softClear
  split <;> exact ⟨rfl, rfl⟩

theorem Plate.softClear_defined (x : Plate) (h : x.state ≠ .undefined) :
    x.softClear.state = .stopped ∧ x.softClear.image = 0 ∧ x.softClear.held = 0 ∧ x.softClear.clip = x.clip := by
  rw [Plate.softClear, if_neg h]
  exact ⟨rfl, rfl, rfl, rfl⟩

theorem Plate.softClear_undefined (x : Plate) (h : x.state = .undefined) : x.softClear.state = .undefined := by
  rw [Plate.softClear, if_pos h]
  exact h

/-- Settles O14: the blocks and the records are cleared, and what goes on behind the clear is quiet. -/
theorem recordsAreFreedAndCleared : Obligations.RecordsAreFreedAndCleared := by
  unfold Obligations.RecordsAreFreedAndCleared
  refine ⟨fun s hc => ?_, fun s k c hr => ?_⟩
  · have blocks := s.beginSoftClear_blocks hc
    have records := s.beginSoftClear_records hc
    refine ⟨fun k => ?_, blocks.source, blocks.list, blocks.line, blocks.link, fun h => s.beginSoftClear_input hc h,
      blocks.tile, fun p hp => ?_, blocks.descriptorFree, blocks.cue, fun h => ?_, fun h => ?_⟩
    · rw [State.event, blocks.events]
      rfl
    · have joins (hu : (s.plate p).state = .undefined) (hl : (s.plate p).loadOpen = true) (d : Nat)
          (hd : d ∈ (s.plate p).clip) : d ∈ s.beginSoftClear.descriptorFree := by
        rw [blocks.descriptorFree, List.mem_append, List.mem_flatMap]
        exact .inr ⟨p, List.mem_range.2 hp, by rwa [Plate.returned, if_pos ⟨hu, hl⟩]⟩
      have own := blocks.plate p hp
      obtain ⟨late, load⟩ := (s.plate p).softClear_counts
      rw [own]
      exact ⟨late, load, fun h => (s.plate p).softClear_defined h,
        fun h => ⟨(s.plate p).softClear_undefined h, joins h⟩⟩
    · rw [s.beginSoftClear_waits h, s.clearBlocks_frame]
      exact ⟨rfl, rfl, rfl, rfl⟩
    · obtain ⟨softClear, queue, slots, lastFailure, live, forces, freezes, masters, pool, sequence, arrival⟩ := records h
      refine ⟨softClear, queue, slots, lastFailure, live, fun p => ?_, fun g => ?_, fun m => ?_, pool, sequence, arrival⟩
      · rw [State.force, forces]
        rfl
      · rw [State.freezeCount, freezes]
        rfl
      · rw [State.master, masters]
        rfl
  · refine ⟨s.free_slot_self k c hr, fun g => State.matching_free _ k g (s.free_slot k), ?_, ?_, fun hi => ?_, fun hu => ?_,
      fun hn o n => s.free_named_other k c hr hn o n, fun j hj => s.free_other k j hj, fun n hn => ?_, ?_⟩
    · rw [s.free_frame k c hr]
    · rw [s.free_source k c hr, if_pos rfl]
    · rw [State.named, s.free_names_indexed k c hr hi]
      exact Table.get_set_self _ _ _ _
    · refine s.free_names_unindexed k c hr ?_
      rintro ⟨named, shown⟩
      rcases hu with h | h | h
      · exact named h
      all_goals simp [h] at shown
    · rw [s.free_source k c hr, if_neg hn]
    · rw [s.free_frame k c hr]

end Sys2Proof.Machine
end

section
/-! PROOF. The commands on contributions at arrival (R60, R61, R68, R69, R71, R76, R88): RELEASE, RELEASE_SOURCE, PAUSE and
RESUME join the queue, and the refusals for want of room in the queue, of quota, of slots and of Level Pool blocks. -/

namespace Sys2Proof.Machine

/-! ### RELEASE, RELEASE_SOURCE, PAUSE and RESUME (R68, R69, R71, R76) -/

/-- RELEASE_SOURCE looks at the target's permission before anything else (R71). -/
theorem releaseSourceArrival_forbidden (s : State) (h : Header) (n : Byte) (h0 : h.src ≠ 0) (hn : h.src ≠ n.toNat) :
    releaseSourceArrival h n s = .refuse .notPermitted :=
  if_pos ⟨hn.symm, h0⟩

section
variable {s : State} {h : Header} {eff : Word} {cl : Bool} (he : effectiveFrame s.timer.counter h = some (eff, cl))
include he

theorem releaseArrival_queues (a : AddressField) (addr : Address) (fade : Option Nat) (ha : addressOf a = some addr)
    (hf : h.fade? = some fade) :
    releaseArrival h a s = queueCommand s h eff cl (.release addr fade) addr.handle? := by
  simp only [releaseArrival, ha, hf, he]

theorem releaseSourceArrival_queues (n : Byte) (fade : Option Nat) (hn : n.toNat ≤ 4)
    (hs : h.src = 0 ∨ h.src = n.toNat) (hf : h.fade? = some fade) :
    releaseSourceArrival h n s = queueCommand s h eff cl (.releaseSource n.toNat fade) none := by
  have permitted : ¬ (n.toNat ≠ h.src ∧ h.src ≠ 0) := by omega
  simp only [releaseSourceArrival, if_neg permitted, if_neg (Nat.not_lt.2 hn), hf, he]

theorem pauseArrival_queues (a : AddressField) (addr : Address) (ha : addressOf a = some addr) :
    pauseArrival h a s = queueCommand s h eff cl (.pause addr) addr.handle? := by
  simp only [pauseArrival, ha, he]

theorem resumeArrival_queues (a : AddressField) (addr : Address) (ha : addressOf a = some addr) :
    resumeArrival h a s = queueCommand s h eff cl (.resume addr) addr.handle? := by
  simp only [resumeArrival, ha, he]

end

/-- Settles O26: each command's own checks pass down to the room in the queue, or stop at the target's permission. -/
theorem contributionArrivalsComplete : Obligations.ContributionArrivalsComplete := by
  rintro s h eff cl ⟨frame, room⟩
  have at' : effectiveFrame (s.met h).timer.counter h = some (eff, cl) := by rwa [State.met_timer]
  refine ⟨fun a addr fade adm ha hf => ?_, fun n fade adm hn hs hf => ?_, fun n adm h0 hn => ?_,
    fun a addr adm ha => ?_, fun a addr adm ha => ?_⟩
  · exact exec_queued s h _ eff cl _ _ rfl adm rfl room (releaseArrival_queues at' a addr fade ha hf)
  · exact exec_queued s h _ eff cl _ _ rfl adm rfl room (releaseSourceArrival_queues at' n fade hn hs hf)
  · exact exec_refused s h _ _ rfl adm rfl (releaseSourceArrival_forbidden _ h n h0 hn)
  · exact exec_queued s h _ eff cl _ _ rfl adm rfl room (pauseArrival_queues at' a addr ha)
  · exact exec_queued s h _ eff cl _ _ rfl adm rfl room (resumeArrival_queues at' a addr ha)

/-! ### Want of room (R60, R61, R88) -/

theorem State.queueRoom_full (s : State) (hq : 64 ≤ s.queue.length) : s.queueRoom = 0 := Nat.sub_eq_zero_of_le hq

/-- An admitted frame-applied command other than TAKE whose checks come down to the room in the queue, with none. -/
theorem exec_queueFull (s : State) (h : Header) (i : Instr) (eff : Word) (cl : Bool) (body : EntryBody)
    (hd : Option Handle) (hh : i.header? = some h) (a : Admitted s h i) (hw : s.judged h i = s.met h)
    (hq : 64 ≤ s.queue.length)
    (ho : i.own (s.endTransaction h.time) (s.met h) = queueCommand (s.met h) h eff cl body hd) :
    exec i s = .next (s.refused h i .queueFull) := by
  refine exec_refused s h i _ hh a hw (ho.trans (if_pos ?_))
  rw [State.met_queueRoom, s.queueRoom_full hq]

theorem setWorklightLevelArrival_queues {s : State} {h : Header} {eff : Word} {cl : Bool}
    (he : effectiveFrame s.timer.counter h = some (eff, cl)) (v : Half) (hs : h.src ≤ 1) :
    setWorklightLevelArrival h v s = queueCommand s h eff cl (.setWorklightLevel v.toNat) none := by
  simp [setWorklightLevelArrival, h.configures_of_le hs, he]

section
variable (s : State) (n : Nat) (form : ValueForm) (count : Nat)

theorem State.reserveProblem_quota (hl : (s.source n).live = (s.source n).quota) :
    s.reserveProblem n form count = some .quota :=
  if_pos hl

variable (hl : (s.source n).live ≠ (s.source n).quota)
include hl

theorem State.reserveProblem_tableFull (hk : s.freeSlot = none) : s.reserveProblem n form count = some .tableFull := by
  simp [State.reserveProblem, hl, hk]

theorem State.reserveProblem_poolFull (hk : s.freeSlot ≠ none) (hb : s.poolFree.length < blocksNeeded form count) :
    s.reserveProblem n form count = some .poolFull := by
  simp [State.reserveProblem, hl, hk, hb]

end

/-- The checks of R60 on the fields of a TAKE, before those on room. -/
structure TakeFieldsPass (s : State) (h : Header) (b : TakeBody) : Prop where
  policy : (policyOf b.policy).isSome = true
  priority : (priorityOf (s.source h.src) (h.mod? 1)).isSome = true
  fade : h.fade?.isSome = true
  frame : (effectiveFrame s.timer.counter h).isSome = true
  selector : s.selectorValid (selectorOf b.selector) = true
  name : b.name.toNat ≤ 4095
  form : b.form.toNat ≤ 1
  levels : s.sourceOutOfRange (selectorOf b.selector) (takeTarget h b) = false

/-- The checks on the fields read nothing that the reload changes. -/
theorem TakeFieldsPass.met {s : State} {h : Header} {b : TakeBody} (p : TakeFieldsPass s h b) :
    TakeFieldsPass (s.met h) h b where
  policy := p.policy
  priority := by rw [priorityOf_met]; exact p.priority
  fade := p.fade
  frame := by rw [State.met_timer]; exact p.frame
  selector := by rw [State.met_selectorValid]; exact p.selector
  name := p.name
  form := p.form
  levels := by rw [State.met_sourceOutOfRange]; exact p.levels

/-- A TAKE whose fields pass is refused for the first want of room, in the order of R60. -/
theorem takeArrival_refuses {s : State} {h : Header} {b : TakeBody} (p : TakeFieldsPass s h b) :
    (s.queueRoom = 0 → takeArrival h b s = .refuse .queueFull) ∧
      ∀ r, s.queueRoom ≠ 0 → s.reserveProblem h.src (takeForm h b) (selectorOf b.selector).count = some r →
        takeArrival h b s = .refuse r.status := by
  obtain ⟨policy, hp⟩ := Option.isSome_iff_exists.1 p.policy
  obtain ⟨⟨priority, c1⟩, hr⟩ := Option.isSome_iff_exists.1 p.priority
  obtain ⟨fade, hf⟩ := Option.isSome_iff_exists.1 p.fade
  obtain ⟨⟨eff, c2⟩, he⟩ := Option.isSome_iff_exists.1 p.frame
  have inRange : ¬ (b.name.toNat > 4095 ∨ b.form.toNat > 1) := not_or.2 ⟨Nat.not_lt.2 p.name, Nat.not_lt.2 p.form⟩
  refine ⟨fun full => ?_, fun r room problem => ?_⟩
  · rw [takeArrival, hp, hr, hf, he]
    simp [p.selector, inRange, p.levels, full]
  · rw [takeArrival, hp, hr, hf, he]
    simp [p.selector, inRange, p.levels, room, problem]

/-- Settles O22: the fields pass, so that the first want of room decides. -/
theorem commandsAreRefusedForWantOfRoom : Obligations.CommandsAreRefusedForWantOfRoom := by
  refine ⟨fun s h b policy pr fade eff a hp hr hf he hx hn hform ho => ?_, fun s h eff cl he full => ?_⟩
  · have pass : TakeFieldsPass s h b := ⟨Option.isSome_of_eq_some hp, Option.isSome_of_eq_some hr,
      Option.isSome_of_eq_some hf, Option.isSome_of_eq_some he, hx, hn, hform, ho⟩
    obtain ⟨queueFull, wants⟩ := takeArrival_refuses pass.met
    have refuses (r : FailReason) (room : s.queue.length < 64)
        (problem : (s.met h).reserveProblem h.src (takeForm h b) (selectorOf b.selector).count = some r) :
        exec (.take h b) s = .next (s.refused h (.take h b) r.status) :=
      exec_refused s h _ _ rfl a rfl (wants r (State.queueRoom_pos _ (by rwa [State.met_queue])) problem)
    refine ⟨fun full => ?_, fun room atQuota => ?_, fun room below none => ?_, fun room below found short => ?_⟩
    · exact exec_refused s h _ _ rfl a rfl (queueFull (State.queueRoom_full _ (by rwa [State.met_queue])))
    · exact refuses .quota room (State.reserveProblem_quota _ _ _ _ (by simpa using atQuota))
    · exact refuses .tableFull room
        (State.reserveProblem_tableFull _ _ _ _ (by simpa using below) (by rwa [State.met_freeSlot]))
    · exact refuses .poolFull room (State.reserveProblem_poolFull _ _ _ _ (by simpa using below)
        (by rwa [State.met_freeSlot]) (by rwa [State.met_poolFree]))
  · have at' : effectiveFrame (s.met h).timer.counter h = some (eff, cl) := by rwa [State.met_timer]
    refine ⟨fun v hs a => ?_, fun g hg hc a => ?_, fun p hp a => ?_⟩
    · exact exec_queueFull s h _ eff cl _ _ rfl a rfl full (setWorklightLevelArrival_queues at' v hs)
    · exact exec_queueFull s h _ eff cl _ _ rfl a rfl full
        (freezeArrival_queues at' g ((State.freezable_iff _ _).2 ⟨hg, by rwa [State.met_group]⟩))
    · exact exec_queueFull s h _ eff cl _ _ rfl a rfl full (platePlayArrival_queues at' p hp)

end Sys2Proof.Machine
end

section
/-! PROOF. The life of a contribution (R57, R61 to R67, R70, R71, R76): what its reservation takes, how a release leaves its
slot, its words and its name, and the application of its entries. -/

namespace Sys2Proof.Machine

/-! ### The reservation (R61, R62) -/

/-- The blocks of a LIST hold a level word and a target for each covered point (R57). -/
theorem two_words_le_blocksNeeded (n : Nat) : 2 * n ≤ 16 * blocksNeeded .list n := by
  show 2 * n ≤ 16 * ((2 * n + 15) / 16)
  omega

section
variable (s : State) (k : Nat) (c : Contribution) (targets : List Nat)

/-- Everything that a reservation changes but the words it writes. -/
theorem State.reserve_eq :
    s.reserve k c targets =
      { s with
        slots := s.slots.set Slot.por k
          ⟨(s.slot k).gen, some { c with chain := s.poolFree.take (blocksNeeded c.form c.selector.count) }⟩
        pool := (s.reserve k c targets).pool
        poolFree := s.poolFree.drop (blocksNeeded c.form c.selector.count)
        sources := s.sources.set Source.por c.owner { s.source c.owner with live := (s.source c.owner).live + 1 }
        queue := s.queue ++ [{ source := c.owner, origin := c.origin, arrival := s.arrival, effective := c.effective,
                               body := .take ⟨k, (s.slot k).gen⟩, due := false }]
        arrival := s.arrival + 1 } := by
  have handle (t : State)
      (h : t.slots = (s.setRecord k { c with chain := s.poolFree.take (blocksNeeded c.form c.selector.count) }).slots) :
      t.handleOf k = ⟨k, (s.slot k).gen⟩ := by
    have same : t.slot k = (s.setRecord k _).slot k := congrArg (fun x : Table Slot => x.get Slot.por k) h
    rw [State.handleOf, same, State.slot_setRecord]
  unfold State.reserve
  dsimp only
  rw [State.setWords_frame, handle]
  · rfl
  · rfl

theorem State.reserve_slot_self :
    (s.reserve k c targets).slot k =
      ⟨(s.slot k).gen, some { c with chain := s.poolFree.take (blocksNeeded c.form c.selector.count) }⟩ := by
  rw [State.reserve_eq]
  exact Table.get_set_self _ _ _ _

theorem State.reserve_slot_other (j : Nat) (hj : j ≠ k) : (s.reserve k c targets).slot j = s.slot j := by
  rw [State.reserve_eq]
  exact Table.get_set_other _ _ _ _ _ hj

theorem State.reserve_source (n : Nat) :
    (s.reserve k c targets).source n =
      if n = c.owner then { s.source c.owner with live := (s.source c.owner).live + 1 } else s.source n := by
  rw [State.reserve_eq]
  exact Table.get_set _ _ _ _ _

/-- The targets of a LIST lie in the words behind its level words (R57). -/
theorem State.reserve_target (hn : s.poolFree.Nodup) (room : blocksNeeded c.form c.selector.count ≤ s.poolFree.length)
    (hf : c.form = .list) (hl : targets.length = c.selector.count) (i : Nat) (hi : i < targets.length) :
    (s.reserve k c targets).word (s.poolFree.take (blocksNeeded c.form c.selector.count)) (c.selector.count + i) =
      targets.getD i 0 := by
  have blocks := two_words_le_blocksNeeded c.selector.count
  rw [← hf] at blocks
  have length : (s.poolFree.take (blocksNeeded c.form c.selector.count)).length =
      blocksNeeded c.form c.selector.count := List.length_take_of_le room
  refine (State.word_setWords _ _ (hn.sublist (List.take_sublist _ _)) c.selector.count targets ?_ _ ?_).trans ?_
  · rw [length]
    omega
  · rw [length]
    omega
  · rw [if_pos (by omega), Nat.add_sub_cancel_left]

end

/-- Settles O23: each item of the one frame of a reservation, and the words by the law of a chain's words. -/
theorem aReservationTakesItsParts : Obligations.AReservationTakesItsParts := by
  intro s k c targets n t
  have frame := s.reserve_eq k c targets
  refine ⟨s.reserve_slot_self k c targets, s.reserve_slot_other k c targets, congrArg State.poolFree frame, ?_,
    fun m hm => ?_, congrArg State.arrival frame, congrArg State.queue frame, s.reserve_target k c targets⟩
  · rw [s.reserve_source, if_pos rfl]
  · rw [s.reserve_source, if_neg hm]

/-! ### The release (R67) -/

/-- The Level Pool's words are all that reading a word turns on. -/
theorem State.word_congr {s t : State} (h : t.pool = s.pool) (chain : List Nat) (w : Nat) :
    t.word chain w = s.word chain w := by
  unfold State.word
  rw [h]

/-- A state with a record's release levels in its level words and its name out of the Name Index. -/
def State.unname (s : State) (c : Contribution) : State :=
  if c.name ≠ 0 then (s.setWords c.chain 0 (s.releaseLevels c)).setNamed c.owner c.name none
  else s.setWords c.chain 0 (s.releaseLevels c)

/-- The record of a release with length L (R67). -/
def Contribution.released (c : Contribution) (L : Nat) : Contribution :=
  { c with name := 0, phase := .fadingOut, fadeOut := L, elapsed := 0, remaining := L, paused := false, fresh := true }

section
variable (s : State) (c : Contribution)

theorem State.unname_frame : s.unname c = { s with pool := (s.unname c).pool, names := (s.unname c).names } := by
  unfold State.unname
  rw [State.setWords_frame]
  split <;> rfl

theorem State.unname_slot (k : Nat) : (s.unname c).slot k = s.slot k := by
  rw [State.unname_frame]
  rfl

theorem State.unname_named (hn : c.name ≠ 0) : (s.unname c).named c.owner c.name = none := by
  rw [State.unname, if_pos hn, State.named_setNamed]

theorem State.unname_word (hc : c.chain.Nodup) (room : c.selector.count ≤ 16 * c.chain.length) (i : Nat)
    (hi : i < c.selector.count) :
    (s.unname c).word c.chain i =
      if c.fresh then s.word c.chain i else s.effectiveLevel c i (s.coveredPoint c.selector i) := by
  have length : (s.releaseLevels c).length = c.selector.count := by simp [State.releaseLevels]
  have pool : (s.unname c).pool = (s.setWords c.chain 0 (s.releaseLevels c)).pool := by
    unfold State.unname
    split <;> rfl
  rw [State.word_congr pool, State.word_setWords s c.chain hc 0 _ (by omega) i (by omega), if_pos (by omega)]
  simp [State.releaseLevels, hi]

variable (k L : Nat) (hr : (s.slot k).record = some c)
include hr

theorem State.release_fades (hL : L ≠ 0) : s.release k L = (s.unname c).setRecord k (c.released L) := by
  rw [State.release, hr]
  exact if_neg hL

theorem State.release_frees : s.release k 0 = ((s.unname c).setRecord k { c with name := 0 }).free k := by
  rw [State.release, hr]
  rfl

/-- The released record's name is out of the Name Index, also where its slot returns to FREE at once. -/
theorem State.release_named (hn : c.name ≠ 0) : (s.release k L).named c.owner c.name = none := by
  rw [← s.unname_named c hn]
  by_cases hL : L = 0
  · subst hL
    have anonymous := State.free_names_unindexed _ k _
      (State.record_setRecord (s.unname c) k { c with name := 0 }) (fun h => h.1 rfl)
    rw [s.release_frees c k hr, State.named, anonymous]
    rfl
  · rw [s.release_fades c k L hr hL]
    rfl

theorem State.release_slot_other (j : Nat) (hj : j ≠ k) : (s.release k L).slot j = s.slot j := by
  by_cases hL : L = 0
  · subst hL
    rw [s.release_frees c k hr, State.free_other _ _ _ hj, State.slot_setRecord_other _ _ _ _ hj, State.unname_slot]
  · rw [s.release_fades c k L hr hL, State.slot_setRecord_other _ _ _ _ hj, State.unname_slot]

end

/-- Settles O25: a release is the unnaming, and then the fading record or the return to FREE. -/
theorem releasingStartsTheFadeOut : Obligations.ReleasingStartsTheFadeOut := by
  intro s k L c hr hc room
  refine ⟨fun hL => ⟨?_, fun i hi => ?_⟩, ?_, s.release_named c k L hr, s.release_slot_other c k L hr⟩
  · rw [s.release_fades c k L hr (Nat.ne_of_gt hL), State.slot_setRecord, State.unname_slot]
    rfl
  · rw [s.release_fades c k L hr (Nat.ne_of_gt hL)]
    exact s.unname_word c hc room i hi
  · rintro rfl
    rw [s.release_frees c k hr]
    exact State.free_slot _ k

/-! ### Entries at their turn (R64, R65, R70, R71, R76) -/

/-- The record of a TAKE at its application (R64): the next sequence, HELD or FADING_IN. -/
def Contribution.taken (c : Contribution) (sequence : Word) : Contribution :=
  { c with sequence := some sequence, phase := if c.fadeIn = 0 then .held else .fadingIn, elapsed := 0, paused := false,
           fresh := true }

/-- A TAKE applied but for the succession and the Name Index (R64, R65). -/
def State.taken (s : State) (c : Contribution) (k : Nat) : State :=
  (({ s with sequence := s.sequence + 1 }).setWords c.chain 0 (s.startValues c)).setRecord k (c.taken (s.sequence + 1))

section
variable (s : State) (e : Entry) (hd : Handle) (c : Contribution) (hm : s.matching hd = some c)
  (lives : ¬ ((s.source c.owner).state = .lost ∧ c.policy = .release))
include hm lives

theorem applyTake_anonymous (hn : c.name = 0) : applyTake s e hd = s.taken c hd.slot := by
  rw [applyTake, hm]
  simp only [if_neg lives, State.succeed, if_pos hn]
  rfl

theorem applyTake_named (hn : c.name ≠ 0) :
    applyTake s e hd =
      ((s.taken c hd.slot).succeed c.owner c.name c.fadeIn).setNamed c.owner c.name (some hd.slot) := by
  rw [applyTake, hm]
  simp only [if_neg lives, if_neg hn]
  rfl

end

theorem State.succeed_nobody (s : State) (o n fade : Nat) (h : s.named o n = none) : s.succeed o n fade = s := by
  unfold State.succeed
  rw [h]
  split <;> rfl

theorem State.succeed_holder (s : State) (o n fade k : Nat) (hn : n ≠ 0) (h : s.named o n = some k) :
    s.succeed o n fade = s.release k fade := by
  unfold State.succeed
  rw [if_neg hn, h]

section
variable (s : State) (e : Entry) (a : Address) (fade : Option Nat) (k : Nat) (c : Contribution)
  (hf : s.find e.source a = some (k, c))
include hf

theorem applyRelease_live (hp : c.phase = .fadingIn ∨ c.phase = .held) :
    applyRelease s e a fade = s.release k (fade.getD c.storedFadeOut) := by
  rw [applyRelease, hf]
  rcases hp with hp | hp <;> simp only [hp]

theorem applyRelease_pending (hp : c.phase = .pending) :
    applyRelease s e a fade = (s.withdrawTake (s.handleOf k)).free k := by
  rw [applyRelease, hf]
  simp only [hp]

theorem applyRelease_fadingOut (hp : c.phase = .fadingOut) :
    applyRelease s e a fade = if fade = some 0 then s.free k else s := by
  rw [applyRelease, hf]
  simp only [hp]

theorem applyPaused_fading (paused : Bool) (hp : c.phase = .fadingIn ∨ c.phase = .fadingOut) :
    applyPaused s e a paused = s.setRecord k { c with paused := paused } := by
  rw [applyPaused, hf]
  exact if_pos hp

end

/-- Settles O40: each application row applies its entry first of all, and the entry does what its kind's lemma says. -/
theorem contributionEntriesApply : Obligations.ContributionEntriesApply := by
  rintro s e rest ⟨running, first⟩
  have row (k : EntryKind) (b : EntryBody) (hb : e.body = b) (hk : b.kind = k) :
      s.applyRow k = (({ s with queue := rest }).applyEntry e).advance :=
    s.applyRow_front k e rest running first (by rw [hb, hk])
  refine ⟨fun hd c hb hm lives => ?_, fun a fade k c hb hf => ?_, fun n fade hb => ?_, fun a k c hf hp => ?_⟩
  · intro u
    have applied : exec .takeApply s = .next (applyTake { s with queue := rest } e hd).advance := by
      refine congrArg Host.Outcome.next ((row .take _ hb rfl).trans ?_)
      rw [State.applyEntry, hb]
    refine ⟨fun hn => ?_, fun hn free => ?_, fun k hn held => ?_⟩
    · rw [applied, applyTake_anonymous { s with queue := rest } e hd c hm lives hn]
      rfl
    · rw [applied, applyTake_named { s with queue := rest } e hd c hm lives hn]
      exact congrArg (fun t : State => Host.Outcome.next (t.setNamed c.owner c.name (some hd.slot)).advance)
        (u.succeed_nobody _ _ _ free)
    · rw [applied, applyTake_named { s with queue := rest } e hd c hm lives hn]
      exact congrArg (fun t : State => Host.Outcome.next (t.setNamed c.owner c.name (some hd.slot)).advance)
        (u.succeed_holder _ _ _ k hn held)
  · have applied : exec .releaseApply s = .next (applyRelease { s with queue := rest } e a fade).advance := by
      refine congrArg Host.Outcome.next ((row .release _ hb rfl).trans ?_)
      rw [State.applyEntry, hb]
    refine ⟨fun hp => ?_, fun hp => ?_, fun hp zero => ?_, fun hp zero => ?_⟩
    · rw [applied, applyRelease_live { s with queue := rest } e a fade k c hf hp]
    · rw [applied, applyRelease_pending { s with queue := rest } e a fade k c hf hp]
      rfl
    · rw [applied, applyRelease_fadingOut { s with queue := rest } e a fade k c hf hp, if_neg zero]
    · rw [applied, applyRelease_fadingOut { s with queue := rest } e a fade k c hf hp, if_pos zero]
  · refine congrArg Host.Outcome.next ((row .releaseSource _ hb rfl).trans ?_)
    rw [State.applyEntry, hb]
    rfl
  · have paused (p : Bool) := applyPaused_fading { s with queue := rest } e a k c hf p hp
    refine ⟨fun hb => ?_, fun hb => ?_⟩
    · refine congrArg Host.Outcome.next ((row .pause _ hb rfl).trans ?_)
      rw [State.applyEntry, hb, ← paused]
    · refine congrArg Host.Outcome.next ((row .resume _ hb rfl).trans ?_)
      rw [State.applyEntry, hb, ← paused]

end Sys2Proof.Machine
end

section
/-! PROOF. The reads with a clear option (R141, R143, R165) and READ_CONTRIBUTION (R77, R78): what each command's own checks
answer, and what the reload leaves of the records they report. -/

namespace Sys2Proof.Machine

/-! ### What the reload leaves of the records that are read -/

@[simp] theorem State.met_imageCount (s : State) (h : Header) (clip : List Nat) :
    (s.met h).imageCount clip = s.imageCount clip := by
  simp [State.imageCount]

@[simp] theorem State.met_plateBytes (s : State) (h : Header) (p : Nat) : (s.met h).plateBytes p = s.plateBytes p := by
  unfold State.plateBytes
  dsimp only
  rw [State.met_plate, State.met_imageCount, State.met_descriptorFree]

@[simp] theorem State.met_descriptorWindow (s : State) (h : Header) (p : Nat) (w : Window) :
    (s.met h).descriptorWindow p w = s.descriptorWindow p w := by
  simp [State.descriptorWindow]

@[simp] theorem State.met_shadowed (s : State) (h : Header) (t : Nat) : (s.met h).shadowed t = s.shadowed t := by
  simp [State.shadowed]

@[simp] theorem State.met_tileBytes (s : State) (h : Header) (t : Nat) : (s.met h).tileBytes t = s.tileBytes t := by
  unfold State.tileBytes
  dsimp only
  rw [State.met_tile, State.met_shadowed, State.met_renderFrame]

@[simp] theorem State.met_queueWindow (s : State) (h : Header) (f n : Nat) :
    (s.met h).queueWindow f n = s.queueWindow f n := by
  simp [State.queueWindow]

/-! ### The clear option (R141, R143, R165) -/

/-- The code of an option (R188). -/
def optionCode (c : Bool) : Byte := if c then 1 else 0

theorem onOff_optionCode (c : Bool) : onOff (optionCode c) = some c := by
  cases c <;> rfl

/-- What a read with a clear option answers once its own range checks have passed: a clear from a source that does not
configure is refused. -/
def clearing (h : Header) (c : Bool) (s cleared : State) (fields : List Byte) : Verdict :=
  if c ∧ !h.configures then .refuse .notPermitted else .accept (if c then cleared else s) false fields

theorem clearing_accepts (h : Header) (c : Bool) (s cleared : State) (fields : List Byte) (hc : c = true → h.src ≤ 1) :
    clearing h c s cleared fields = .accept (if c then cleared else s) false fields := by
  refine if_neg ?_
  rintro ⟨on, foreign⟩
  rw [h.configures_of_le (hc on)] at foreign
  cases foreign

theorem clearing_refuses (h : Header) (s cleared : State) (fields : List Byte) (hs : 2 ≤ h.src) :
    clearing h true s cleared fields = .refuse .notPermitted :=
  if_pos ⟨rfl, h.not_configures hs⟩

section
variable (h : Header) (n : Byte) (c : Bool) (s : State)

theorem readLineOwn_clearing (hn : n.toNat ≤ 7) :
    readLineOwn h n (optionCode c) s =
      clearing h c s (s.setLine n.toNat { s.line n.toNat with slips := 0, drops := 0 }) (s.line n.toNat).bytes := by
  rw [readLineOwn, onOff_optionCode]
  exact if_neg (Nat.not_lt.2 hn)

theorem readInputOwn_clearing (hn : n.toNat ≤ 3) :
    readInputOwn h n (optionCode c) s =
      clearing h c s (s.setInput n.toNat { s.input n.toNat with losses := 0 })
        (mark (s.input n.toNat).enabled ++ mark (s.input n.toNat).pin ++ mark (s.input n.toNat).sample ++
          u8 (shownCode (s.input n.toNat).shown) ++ u8 (s.input n.toNat).losses) := by
  rw [readInputOwn, onOff_optionCode]
  exact if_neg (Nat.not_lt.2 hn)

theorem readTileOwn_clearing (hn : n.toNat ≤ 63) :
    readTileOwn h n (optionCode c) s =
      clearing h c s (s.setTile n.toNat { s.tile n.toNat with fetchLate := 0 }) (s.tileBytes n.toNat) := by
  rw [readTileOwn, onOff_optionCode]
  exact if_neg (Nat.not_lt.2 hn)

theorem readLinkOwn_clearing (hn : n.toNat ≤ 3) :
    readLinkOwn h n (optionCode c) s =
      clearing h c s (s.setLink n.toNat { s.link n.toNat with slips := 0, drops := 0 }) (s.link n.toNat).bytes := by
  rw [readLinkOwn, onOff_optionCode]
  exact if_neg (Nat.not_lt.2 hn)

theorem readPlateOwn_clearing (hn : n.toNat ≤ 7) (w : Option Window) (hw : w.all (s.plate n.toNat).windowFits = true) :
    readPlateOwn h n (optionCode c) w s =
      clearing h c s (s.setPlate n.toNat { s.plate n.toNat with late := 0 })
        (s.plateBytes n.toNat ++ (w.map (s.descriptorWindow n.toNat)).getD []) := by
  rw [readPlateOwn, onOff_optionCode]
  dsimp only
  rw [if_neg (Nat.not_lt.2 hn), hw]
  rfl

end

/-- An admitted read with a clear option, from its own checks on the state behind the reload: with the option from a source
that configures, or without it, it is accepted. -/
theorem exec_clearing (s cleared : State) (h : Header) (i : Instr) (c : Bool) (fields : List Byte)
    (hh : i.header? = some h) (a : Admitted s h i) (hw : s.judged h i = s.met h) (hc : c = true → h.src ≤ 1)
    (ho : i.own (s.endTransaction h.time) (s.met h) = clearing h c (s.met h) cleared fields) :
    exec i s = .next (s.accepted h i (if c then cleared else s.met h) false fields) := by
  rw [clearing_accepts h c _ _ _ hc, ← hw] at ho
  rw [exec_accepted s _ h i false fields hh a ho, hw]

/-- With the option from another source it is refused. -/
theorem exec_clearing_refused (s cleared : State) (h : Header) (i : Instr) (fields : List Byte)
    (hh : i.header? = some h) (a : Admitted s h i) (hw : s.judged h i = s.met h) (hs : 2 ≤ h.src)
    (ho : i.own (s.endTransaction h.time) (s.met h) = clearing h true (s.met h) cleared fields) :
    exec i s = .next (s.refused h i .notPermitted) :=
  exec_refused s h i _ hh a hw (ho.trans (clearing_refuses h _ _ _ hs))

/-! ### READ_CONTRIBUTION (R77, R78) -/

section
variable (s : State) (a : ReadAddressField) (w : Option Window)

theorem readContributionOwn_notFound (ha : s.readAddress a = some none) :
    readContributionOwn a w s = .refuse .notFound := by
  rw [readContributionOwn, ha]

theorem readContributionOwn_free (k : Nat) (ha : s.readAddress a = some (some k)) (hr : (s.slot k).record = none) :
    readContributionOwn a none s = .accept s false (u8 0 ++ handleBytes (some (s.handleOf k)) ++ s.slotTail a) := by
  simp only [readContributionOwn, ha, hr]

theorem readContributionOwn_record (k : Nat) (c : Contribution) (ha : s.readAddress a = some (some k))
    (hr : (s.slot k).record = some c) (hw : w.all (windowFits c) = true) :
    readContributionOwn a w s =
      .accept s false (c.bytes (s.handleOf k) ++ s.slotTail a ++ (w.map (s.windowBytes c)).getD []) := by
  cases w with
  | none => simp [readContributionOwn, ha, hr]
  | some w =>
    have fits : windowFits c w = true := hw
    simp [readContributionOwn, ha, hr, fits]

end

theorem State.readAddress_slot (s : State) (k : Byte) (hk : k.toNat ≤ 191) :
    s.readAddress (.slot k) = some (some k.toNat) := if_neg (Nat.not_lt.2 hk)

theorem State.readAddress_handle (s : State) (k g : Byte) (hk : k.toNat ≤ 191) :
    s.readAddress (.handle k g) =
      some (if (s.matching ⟨k.toNat, g.toNat⟩).isSome then some k.toNat else none) := if_neg (Nat.not_lt.2 hk)

theorem State.readAddress_ownerName (s : State) (o : Byte) (n : Half) (ho : o.toNat ≤ 4) (h1 : 1 ≤ n.toNat)
    (hn : n.toNat ≤ 4095) : s.readAddress (.ownerName o n) = some (s.named o.toNat n.toNat) := if_neg (by omega)

theorem State.slotTail_handle (s : State) (k g : Byte) : s.slotTail (.handle k g) = [] := rfl

theorem State.slotTail_ownerName (s : State) (o : Byte) (n : Half) : s.slotTail (.ownerName o n) = [] := rfl

/-- A handle that matches is that of its slot's record (R54). -/
theorem State.matching_some {s : State} {h : Handle} {c : Contribution} (hm : s.matching h = some c) :
    (s.slot h.slot).record = some c ∧ s.handleOf h.slot = h := by
  unfold State.matching at hm
  split at hm
  · rename_i match'
    exact ⟨hm, congrArg (Handle.mk h.slot) match'.2⟩
  · cases hm

/-- Settles O32: the five reads by the clear option, and READ_CONTRIBUTION by what its address finds. -/
theorem readsWithClearComplete : Obligations.ReadsWithClearComplete := by
  refine ⟨?_, ?_, ?_⟩
  · intro s h n c hc clear
    refine ⟨?_, ?_, ?_, ?_, ?_⟩
    · intro a hn
      have own := readLineOwn_clearing h n c (s.met h) hn
      rw [State.met_line] at own
      exact exec_clearing s _ h _ c _ rfl a rfl hc own
    · intro a hn
      have own := readInputOwn_clearing h n c (s.met h) hn
      rw [State.met_input] at own
      exact exec_clearing s _ h _ c _ rfl a rfl hc own
    · intro a hn
      have own := readTileOwn_clearing h n c (s.met h) hn
      rw [State.met_tile, State.met_tileBytes] at own
      exact exec_clearing s _ h _ c _ rfl a rfl hc own
    · intro a hn
      have own := readLinkOwn_clearing h n c (s.met h) hn
      rw [State.met_link] at own
      exact exec_clearing s _ h _ c _ rfl a rfl hc own
    · intro w a hn hw
      have own := readPlateOwn_clearing h n c (s.met h) hn w (by rwa [State.met_plate])
      rw [State.met_plate, State.met_plateBytes, funext (s.met_descriptorWindow h n.toNat)] at own
      exact exec_clearing s _ h _ c _ rfl a rfl hc own
  · intro s h n hs
    refine ⟨?_, ?_, ?_, ?_, ?_⟩
    · intro a hn
      exact exec_clearing_refused s _ h _ _ rfl a rfl hs (readLineOwn_clearing h n true (s.met h) hn)
    · intro a hn
      exact exec_clearing_refused s _ h _ _ rfl a rfl hs (readInputOwn_clearing h n true (s.met h) hn)
    · intro a hn
      exact exec_clearing_refused s _ h _ _ rfl a rfl hs (readTileOwn_clearing h n true (s.met h) hn)
    · intro a hn
      exact exec_clearing_refused s _ h _ _ rfl a rfl hs (readLinkOwn_clearing h n true (s.met h) hn)
    · intro w a hn hw
      exact exec_clearing_refused s _ h _ _ rfl a rfl hs
        (readPlateOwn_clearing h n true (s.met h) hn w (by rwa [State.met_plate]))
  · intro s h w p
    refine ⟨?_, ?_⟩
    · intro k g a hk
      have address := p.readAddress_handle k g hk
      refine ⟨?_, ?_⟩
      · intro hm
        rw [hm] at address
        exact exec_refusedAt s h _ _ rfl a (readContributionOwn_notFound p _ w address)
      · intro c hm hw
        obtain ⟨record, handle⟩ := State.matching_some hm
        rw [hm] at address
        have own := readContributionOwn_record p (.handle k g) w k.toNat c address record hw
        rw [handle, State.slotTail_handle, List.append_nil] at own
        exact exec_accepted s p h _ false _ rfl a own
    · intro o n a ho h1 hn
      have address := p.readAddress_ownerName o n ho h1 hn
      refine ⟨?_, ?_⟩
      · intro hname
        rw [hname] at address
        exact exec_refusedAt s h _ _ rfl a (readContributionOwn_notFound p _ w address)
      · intro k c hname hr hw
        rw [hname] at address
        have own := readContributionOwn_record p (.ownerName o n) w k c address hr hw
        rw [State.slotTail_ownerName, List.append_nil] at own
        exact exec_accepted s p h _ false _ rfl a own

end Sys2Proof.Machine
end

section
/-! PROOF. What is left of a frame start's work when a read awaits it (R77, R132, R184; log 4): the operations of a frame
start leave the work marks and make no waiting entry due, so that its application, its losses, its counts and its evaluation
come to an end; and the reads without a clear option. -/

namespace Sys2Proof.Machine

/-! ### Operations that leave no more to do -/

/-- The due entries that wait (R85). -/
def State.dueCount (s : State) : Nat := s.queue.countP Entry.due

theorem State.noneDue_iff (s : State) : s.noneDue = true ↔ s.dueCount = 0 := by
  simp [State.noneDue, State.dueCount, List.countP_eq_zero]

/-- From `s` to `t` the work marks are the same, and no more entries are due. -/
structure NoMoreDue (s t : State) : Prop where
  work : t.work = s.work
  due : t.dueCount ≤ s.dueCount

theorem NoMoreDue.of_eq {s t : State} (hw : t.work = s.work) (hq : t.queue = s.queue) : NoMoreDue s t :=
  ⟨hw, Nat.le_of_eq (congrArg (List.countP Entry.due) hq)⟩

theorem NoMoreDue.refl (s : State) : NoMoreDue s s := .of_eq rfl rfl

theorem NoMoreDue.trans {s t u : State} (h : NoMoreDue s t) (g : NoMoreDue t u) : NoMoreDue s u :=
  ⟨g.work.trans h.work, Nat.le_trans g.due h.due⟩

/-- As `trans`, the later part first. -/
theorem NoMoreDue.after {s t u : State} (g : NoMoreDue t u) (h : NoMoreDue s t) : NoMoreDue s u := h.trans g

theorem NoMoreDue.ite {c : Prop} [Decidable c] {s t u : State} (h : NoMoreDue s t) (g : NoMoreDue s u) :
    NoMoreDue s (if c then t else u) := by
  split <;> assumption

theorem NoMoreDue.each {f : State → Nat → State} (h : ∀ s k, NoMoreDue s (f s k)) (s : State) (l : List Nat) :
    NoMoreDue s (s.each f l) := by
  induction l generalizing s with
  | nil => exact .refl s
  | cons k ks ih => exact (h s k).trans (ih _)

theorem NoMoreDue.raise (s : State) (k : EventKind) : NoMoreDue s (s.raise k) := .of_eq rfl rfl

theorem NoMoreDue.setForce (s : State) (p : Nat) (v : Option Force) : NoMoreDue s (s.setForce p v) := .of_eq rfl rfl

theorem NoMoreDue.setCue (s : State) (c : Nat) (v : Cue) : NoMoreDue s (s.setCue c v) := .of_eq rfl rfl

theorem NoMoreDue.setList (s : State) (l : Nat) (v : CueList) : NoMoreDue s (s.setList l v) := .of_eq rfl rfl

theorem NoMoreDue.setPlate (s : State) (p : Nat) (v : Plate) : NoMoreDue s (s.setPlate p v) := .of_eq rfl rfl

theorem NoMoreDue.setRecord (s : State) (k : Nat) (c : Contribution) : NoMoreDue s (s.setRecord k c) := .of_eq rfl rfl

theorem NoMoreDue.setWords (s : State) (chain : List Nat) (w : Nat) (vs : List Nat) :
    NoMoreDue s (s.setWords chain w vs) := by
  rw [State.setWords_frame]
  exact .of_eq rfl rfl

/-- The removal of entries from the queue leaves no more of them due. -/
theorem NoMoreDue.withdrawTake (s : State) (h : Handle) : NoMoreDue s (s.withdrawTake h) :=
  ⟨rfl, List.Sublist.countP_le List.filter_sublist⟩

/-- An entry that joins the queue is not due (R81, R85). -/
theorem NoMoreDue.enqueue (s : State) (n : Nat) (o : Origin) (f : Word) (b : EntryBody) :
    NoMoreDue s (s.enqueue n o f b) :=
  ⟨rfl, by simp [State.dueCount, State.enqueue]⟩

theorem NoMoreDue.free (s : State) (k : Nat) : NoMoreDue s (s.free k) := by
  cases hr : (s.slot k).record with
  | none =>
    rw [State.free, hr]
    exact .refl s
  | some c =>
    rw [s.free_frame k c hr]
    exact .of_eq rfl rfl

theorem NoMoreDue.release (s : State) (k L : Nat) : NoMoreDue s (s.release k L) := by
  cases hr : (s.slot k).record with
  | none =>
    rw [State.release, hr]
    exact .refl s
  | some c =>
    have unnamed : NoMoreDue s (s.unname c) := by
      rw [State.unname_frame]
      exact .of_eq rfl rfl
    by_cases hL : L = 0
    · subst hL
      rw [s.release_frees c k hr]
      exact .after (.free _ _) (unnamed.trans (.setRecord _ _ _))
    · rw [s.release_fades c k L hr hL]
      exact unnamed.trans (.setRecord _ _ _)

/-! ### Applications (R85) -/

theorem NoMoreDue.recordFailure (s : State) (f : Failure) : NoMoreDue s (s.recordFailure f) := .of_eq rfl rfl

section
variable (s : State) (e : Entry)

theorem NoMoreDue.drop (r : FailReason) : NoMoreDue s (s.drop e r) := .recordFailure _ _

theorem NoMoreDue.succeed (o n f : Nat) : NoMoreDue s (s.succeed o n f) := by
  unfold State.succeed
  refine .ite (.refl s) ?_
  split
  · exact .release _ _ _
  · exact .refl s

theorem NoMoreDue.applyTake (h : Handle) : NoMoreDue s (applyTake s e h) := by
  unfold Machine.applyTake
  split
  · exact .refl s
  · refine .ite ((NoMoreDue.drop _ _ _).trans (.free _ _)) ?_
    refine NoMoreDue.trans ?_ (.ite (.refl _) (.of_eq rfl rfl))
    refine NoMoreDue.trans ?_ (.succeed _ _ _ _)
    refine NoMoreDue.trans ?_ (.setRecord _ _ _)
    exact .after (.setWords _ _ _ _) (.of_eq rfl rfl)

theorem NoMoreDue.applyRelease (a : Address) (f : Option Nat) : NoMoreDue s (applyRelease s e a f) := by
  unfold Machine.applyRelease
  split
  · exact .drop _ _ _
  · split
    · exact (NoMoreDue.withdrawTake _ _).trans (.free _ _)
    · exact .release _ _ _
    · exact .release _ _ _
    · exact .ite (.free _ _) (.refl _)

theorem NoMoreDue.applyPaused (a : Address) (b : Bool) : NoMoreDue s (applyPaused s e a b) := by
  unfold Machine.applyPaused
  split
  · exact .drop _ _ _
  · exact .ite (.of_eq rfl rfl) (.drop _ _ _)

theorem NoMoreDue.applyBindPoint (p : Nat) (b : Binding) : NoMoreDue s (applyBindPoint s e p b) := by
  have occupants (t : State) (v : Option Nat) (ks : List Nat) : NoMoreDue t (t.setOccupants v ks) :=
    .each (fun t k => .of_eq (t := t.setOccupant k v) rfl rfl) t ks
  unfold Machine.applyBindPoint
  refine .ite (.drop _ _ _) (.ite (.drop _ _ _) ?_)
  exact ((occupants _ _ _).trans (occupants _ _ _)).trans (.of_eq rfl rfl)

theorem NoMoreDue.applyPlatePlay (p : Nat) : NoMoreDue s (applyPlatePlay s e p) := by
  unfold Machine.applyPlatePlay
  dsimp only
  split
  · exact .drop _ _ _
  · exact .setPlate _ _ _
  · exact .refl s
  · exact .setPlate _ _ _
  · exact .setPlate _ _ _

theorem NoMoreDue.applyPlateStop (p : Nat) : NoMoreDue s (applyPlateStop s e p) := by
  unfold Machine.applyPlateStop
  dsimp only
  split
  · exact .drop _ _ _
  · exact .refl s
  · exact .setPlate _ _ _
  · exact .setPlate _ _ _
  · exact .setPlate _ _ _

/-- The application of an entry by its owning block. -/
theorem NoMoreDue.applyEntry : NoMoreDue s (s.applyEntry e) := by
  unfold State.applyEntry
  split
  · exact .applyTake _ _ _
  · exact .applyRelease _ _ _ _
  · exact .each (fun t k => .release t k _) _ _
  · exact .applyPaused _ _ _ _
  · exact .applyPaused _ _ _ _
  · exact .ite (.drop _ _ _) (.ite (.drop _ _ _) (.ite (.drop _ _ _) (.of_eq rfl rfl)))
  · exact .applyBindPoint _ _ _ _
  · exact .of_eq rfl rfl
  · exact .ite (.drop _ _ _) (.ite (.drop _ _ _) (.each (fun t _ => .setForce t _ _) _ _))
  · exact .ite (.drop _ _ _) (.each (fun t _ => .setForce t _ _) _ _)
  · exact .ite (.drop _ _ _) (.of_eq rfl rfl)
  · exact .ite (.drop _ _ _) (.of_eq rfl rfl)
  · exact .ite (.of_eq rfl rfl) (.of_eq rfl rfl)
  · exact .of_eq rfl rfl
  · exact .applyPlatePlay _ _ _
  · exact .applyPlateStop _ _ _
  · exact .of_eq rfl rfl

end

/-- The first due entry is one of the due entries. -/
theorem takeFirstDue_countP (q : List Entry) (e : Entry) (rest : List Entry) (h : takeFirstDue q = some (e, rest)) :
    rest.countP Entry.due + 1 = q.countP Entry.due := by
  induction q generalizing e rest with
  | nil => cases h
  | cons d ds ih =>
    unfold takeFirstDue at h
    split at h
    · rename_i hd
      cases h
      rw [List.countP_cons_of_pos hd]
    · rename_i hd
      obtain ⟨⟨f, fs⟩, hr, heq⟩ := Option.map_eq_some_iff.1 h
      cases heq
      rw [List.countP_cons_of_neg hd, List.countP_cons_of_neg hd, ih f fs hr]

theorem takeFirstDue_eq_none (q : List Entry) (h : takeFirstDue q = none) : q.countP Entry.due = 0 := by
  induction q with
  | nil => rfl
  | cons d ds ih =>
    unfold takeFirstDue at h
    split at h
    · cases h
    · rename_i hd
      rw [List.countP_cons_of_neg hd, ih (Option.map_eq_none_iff.1 h)]

theorem State.dueCount_applyNext (s : State) : s.applyNext.dueCount ≤ s.dueCount - 1 := by
  unfold State.applyNext
  split
  · rename_i h
    have none := takeFirstDue_eq_none _ h
    exact Nat.le_trans (Nat.le_of_eq none) (Nat.zero_le _)
  · rename_i e rest h
    have one := takeFirstDue_countP _ _ _ h
    refine Nat.le_trans (NoMoreDue.applyEntry { s with queue := rest } e).due ?_
    show rest.countP Entry.due ≤ s.queue.countP Entry.due - 1
    omega

theorem State.dueCount_applyDue (s : State) (n : Nat) : (s.applyDue n).dueCount ≤ s.dueCount - n := by
  induction n generalizing s with
  | zero => exact Nat.le_refl _
  | succ n ih =>
    have next := s.dueCount_applyNext
    have rest := ih s.applyNext
    rw [State.applyDue]
    omega

/-- The tick of a source is taken off the outstanding ones, and leaves no more to do (R46, R47). -/
theorem NoMoreDue.takeTick (s : State) (n : Nat) :
    NoMoreDue (s.setWork { s.work with lossDue := s.work.lossDue.filter (· != n) }) (s.takeTick n) := by
  unfold State.takeTick State.loseSource
  refine .ite ?_ (.of_eq rfl rfl)
  exact .after (.each (fun t k => .release t k _) _ _) (.of_eq rfl rfl)

theorem State.each_takeTick (s : State) (l : List Nat) :
    (s.each State.takeTick l).dueCount ≤ s.dueCount ∧
      ∀ n, n ∈ (s.each State.takeTick l).work.lossDue → n ∈ s.work.lossDue ∧ n ∉ l := by
  induction l generalizing s with
  | nil => exact ⟨Nat.le_refl _, fun n hn => ⟨hn, List.not_mem_nil⟩⟩
  | cons k ks ih =>
    obtain ⟨due, losses⟩ := ih (s.takeTick k)
    have tick := NoMoreDue.takeTick s k
    refine ⟨Nat.le_trans due tick.due, fun n hn => ?_⟩
    obtain ⟨before, others⟩ := losses n hn
    rw [tick.work] at before
    obtain ⟨listed, other⟩ := List.mem_filter.1 before
    exact ⟨listed, by simpa [others] using other⟩

/-- The rest of an application leaves neither a due entry nor an outstanding tick. -/
theorem State.settleApplication_done (s : State) :
    s.settleApplication.dueCount = 0 ∧ s.settleApplication.work.lossDue = [] := by
  have applied := s.dueCount_applyDue s.queue.length
  have all : s.dueCount ≤ s.queue.length := List.countP_le_length
  obtain ⟨due, losses⟩ := (s.applyDue s.queue.length).each_takeTick (s.applyDue s.queue.length).work.lossDue
  refine ⟨by unfold State.settleApplication; dsimp only; omega, List.eq_nil_iff_forall_not_mem.2 fun n hn => ?_⟩
  obtain ⟨listed, other⟩ := losses n hn
  exact other listed

/-! ### Evaluation and firing (R178, R179) -/

theorem NoMoreDue.reserve (s : State) (k : Nat) (c : Contribution) (ts : List Nat) : NoMoreDue s (s.reserve k c ts) :=
  ⟨by rw [s.reserve_eq], by rw [State.dueCount, s.reserve_eq]; simp [State.dueCount]⟩

theorem NoMoreDue.fireTake (s : State) (n c : Nat) (a : TakeAction) : NoMoreDue s (s.fireTake n c a) := by
  unfold State.fireTake
  refine .ite (.recordFailure _ _) ?_
  split
  · exact .recordFailure _ _
  · exact .recordFailure _ _
  · exact .reserve _ _ _ _

theorem NoMoreDue.fireAction (s : State) (n c a : Nat) : NoMoreDue s (s.fireAction n c a) := by
  unfold State.fireAction
  split
  · exact .fireTake _ _ _ _
  · split
    · exact .enqueue _ _ _ _ _
    · exact .refl s

theorem NoMoreDue.newPass (s : State) (l : Nat) : NoMoreDue s (s.newPass l) :=
  NoMoreDue.trans (.each (fun t c => .setCue t c _) _ _ : NoMoreDue s (s.armList l)) (.setList _ _ _)

theorem NoMoreDue.endPass (s : State) (l : Nat) : NoMoreDue s (s.endPass l) := by
  unfold State.endPass
  dsimp only
  refine .ite (.newPass _ _) (.ite ((NoMoreDue.newPass _ _).trans (.setList _ _ _)) ?_)
  exact (NoMoreDue.setList _ _ _).trans (.raise _ _)

theorem NoMoreDue.fireCue (s : State) (l c : Nat) : NoMoreDue s (s.fireCue l c) := by
  unfold State.fireCue
  dsimp only
  refine NoMoreDue.trans (.each (fun t a => .fireAction t (s.list l).acting c a) s (s.cue c).chain) ?_
  refine .ite (.after (.endPass _ _) ?_) ?_
  all_goals exact (NoMoreDue.setCue _ _ _).trans (.setList _ _ _)

theorem NoMoreDue.holdLate (s : State) (l c : Nat) (a : LateCause) : NoMoreDue s (s.holdLate l c a) := by
  unfold State.holdLate
  refine .ite (.refl s) ?_
  exact ((NoMoreDue.setCue _ _ _).trans (.setList _ _ _)).trans (.raise _ _)

/-- A later evaluation mark takes the place of an earlier one. -/
theorem NoMoreDue.setEvaluation {s t : State} {e : Option Evaluation} (h : NoMoreDue (s.setEvaluation e) t)
    (f : Option Evaluation) : NoMoreDue (s.setEvaluation f) (t.setEvaluation f) :=
  ⟨congrArg (fun w : Work => { w with evaluation := f }) h.work, h.due⟩

/-- A turn of the evaluation moves its own mark and leaves no more to do. -/
theorem NoMoreDue.evaluateOnce (s : State) : ∃ e, NoMoreDue (s.setEvaluation e) s.evaluateOnce.1 := by
  have own : NoMoreDue (s.setEvaluation s.work.evaluation) s := .of_eq rfl rfl
  have mark {t : State} (h : NoMoreDue s t) (f : Option Evaluation) :
      ∃ e, NoMoreDue (s.setEvaluation e) (t.setEvaluation f) := ⟨f, (own.trans h).setEvaluation f⟩
  unfold State.evaluateOnce
  split
  · exact ⟨_, own⟩
  · split
    · exact mark (.refl s) _
    · split
      · exact mark (.refl s) _
      · split
        · exact mark (.holdLate _ _ _ _) _
        · split
          · exact mark (.holdLate _ _ _ _) _
          · exact mark (.fireCue _ _ _) _

theorem NoMoreDue.evaluateAll (s : State) (n : Nat) : ∃ e, NoMoreDue (s.setEvaluation e) (s.evaluateAll n) := by
  induction n generalizing s with
  | zero => exact ⟨s.work.evaluation, .of_eq rfl rfl⟩
  | succ n ih =>
    obtain ⟨e, once⟩ := NoMoreDue.evaluateOnce s
    obtain ⟨f, rest⟩ := ih s.evaluateOnce.1
    exact ⟨f, (once.setEvaluation f).trans rest⟩

/-- Of the work marks the whole evaluation changes its own, and it leaves no more entries due. -/
theorem State.evaluateAll_settles (s : State) :
    (s.evaluateAll 40).work = { s.work with evaluation := none } ∧ (s.evaluateAll 40).dueCount ≤ s.dueCount := by
  obtain ⟨e, all⟩ := NoMoreDue.evaluateAll s 40
  have done := s.evaluateAll_done
  have work : (s.evaluateAll 40).work = { s.work with evaluation := e } := all.work
  rw [work] at done
  exact ⟨by rw [work, ← done], all.due⟩

/-! ### The counts that end, and the beginning of the render pass (R96) -/

theorem NoMoreDue.completeFade (s : State) (k : Nat) : NoMoreDue s (s.completeFade k) := by
  have fadeIn : NoMoreDue s (s.completeFadeIn k) := by
    unfold State.completeFadeIn
    split
    · exact .ite (.of_eq rfl rfl) (.refl s)
    · exact .refl s
  refine fadeIn.trans ?_
  unfold State.completeFade State.completeFadeOut
  split
  · exact .ite (.free _ _) (.refl _)
  · exact .refl _

theorem NoMoreDue.completePlate (s : State) (p : Nat) : NoMoreDue s (s.completePlate p) := by
  unfold State.completePlate
  refine .ite (.refl s) (.ite (.setPlate _ _ _) ?_)
  split
  · exact .setPlate _ _ _
  · exact (NoMoreDue.setPlate _ _ _).trans (.raise _ _)
  · exact (NoMoreDue.setPlate _ _ _).trans (.raise _ _)

theorem NoMoreDue.completeDissolve (s : State) (t : Nat) : NoMoreDue s (s.completeDissolve t) :=
  .ite (.refl s) (.of_eq rfl rfl)

theorem NoMoreDue.completeWake (s : State) (l : Nat) : NoMoreDue s (s.completeWake l) :=
  .ite (.refl s) (.of_eq rfl rfl)

/-- The counts that end leave none of them due, the evaluation taken and no more entries due. -/
theorem State.settleCounts_settles (s : State) :
    s.settleCounts.work =
        { s.work with
          fadesDue := [], mastersDue := [], platesDue := [], dissolvesDue := [], wakesDue := [], evaluation := none } ∧
      s.settleCounts.dueCount ≤ s.dueCount := by
  unfold State.settleCounts
  dsimp only
  generalize hu : s.setWork
    { s.work with fadesDue := [], mastersDue := [], platesDue := [], dissolvesDue := [], wakesDue := [] } = u
  have fades : NoMoreDue u ((u.each State.completeFade s.work.fadesDue).each State.completeMaster s.work.mastersDue) :=
    (NoMoreDue.each .completeFade _ _).trans (.each (fun t m => .of_eq (t := t.completeMaster m) rfl rfl) _ _)
  obtain ⟨work, due⟩ := State.evaluateAll_settles
    ((u.each State.completeFade s.work.fadesDue).each State.completeMaster s.work.mastersDue)
  have rest (t : State) : NoMoreDue t (((t.each State.completePlate s.work.platesDue).each State.completeDissolve
      s.work.dissolvesDue).each State.completeWake s.work.wakesDue) :=
    ((NoMoreDue.each .completePlate _ _).trans (.each .completeDissolve _ _)).trans (.each .completeWake _ _)
  refine ⟨?_, Nat.le_trans (Nat.le_trans (rest _).due due) (Nat.le_trans fades.due (Nat.le_of_eq ?_))⟩
  · rw [(rest _).work, work, fades.work, ← hu]
    rfl
  · rw [← hu]
    rfl

theorem State.beginRender_work (s : State) : s.beginRender.work = { s.work with phase := .rendering } := by
  have add (t : State) (k p : Nat) : (t.addFetch k p).work = t.work := by
    unfold State.addFetch
    dsimp only
    split <;> rfl
  have list (t : State) : t.formFetchList.work = t.work :=
    State.foldl_same State.work (fun u k => State.foldl_same State.work (fun v p => add v k p) u _) _ _
  unfold State.beginRender
  dsimp only
  rw [list, State.each_same State.work (fun _ _ => by rfl)]

theorem State.dueCount_of_advanced {s t : State} (h : Advanced s t) : t.dueCount = s.dueCount :=
  by
  unfold State.dueCount
  rw [h.frame]

/-- The work marks as the render pass begins: none of the counts due, the evaluation taken. -/
theorem State.settleCounts_beginRender (s : State) :
    s.settleCounts.beginRender.work =
        { s.work with
          phase := .rendering, fadesDue := [], mastersDue := [], platesDue := [], dissolvesDue := [], wakesDue := []
          evaluation := none } ∧
      s.settleCounts.beginRender.dueCount ≤ s.dueCount := by
  obtain ⟨work, due⟩ := s.settleCounts_settles
  rw [State.beginRender_work, work, State.dueCount_of_advanced (Advanced.beginRender _)]
  exact ⟨rfl, due⟩

theorem State.settleToPass_applying (s : State) (h : s.work.phase = .applying) :
    s.settleToPass = s.settleApplication.beginCounting.settleCounts.beginRender := by
  rw [State.settleToPass, h]

theorem State.settleToPass_counting (s : State) (h : s.work.phase = .counting) :
    s.settleToPass = s.settleCounts.beginRender := by
  rw [State.settleToPass, h]

theorem State.settleToPass_still (s : State) (h : s.work.phase = .idle ∨ s.work.phase = .rendering) :
    s.settleToPass = s := by
  rcases h with h | h <;> rw [State.settleToPass, h]

/-- A frame start's work up to its render pass leaves no due entry and no outstanding tick. -/
theorem State.settleToPass_application (s : State) (h : s.work.phase = .applying) :
    s.settleToPass.noneDue = true ∧ s.settleToPass.work.lossDue = [] := by
  obtain ⟨due, losses⟩ := s.settleApplication_done
  have counted := Advanced.beginCounting s.settleApplication
  obtain ⟨work, noMore⟩ := s.settleApplication.beginCounting.settleCounts_beginRender
  rw [State.dueCount_of_advanced counted, due] at noMore
  rw [s.settleToPass_applying h, State.noneDue_iff, work]
  refine ⟨Nat.le_zero.1 noMore, ?_⟩
  dsimp only
  rw [counted.losses, losses]

/-- It leaves no count to end and nothing to evaluate, with the render pass begun. -/
theorem State.settleToPass_counts (s : State) (h : s.work.phase = .applying ∨ s.work.phase = .counting) :
    s.settleToPass.work.counted = true ∧ s.settleToPass.work.evaluation = none ∧
      s.settleToPass.work.phase = .rendering := by
  obtain ⟨t, ht⟩ : ∃ t : State, s.settleToPass = t.settleCounts.beginRender := by
    rcases h with h | h
    · exact ⟨_, s.settleToPass_applying h⟩
    · exact ⟨_, s.settleToPass_counting h⟩
  rw [ht, t.settleCounts_beginRender.1]
  exact ⟨rfl, rfl, rfl⟩

/-! ### The reads (R94, R132, R184) -/

theorem readQueueOwn_reads (f n : Byte) (s : State) (hf : f.toNat ≤ 63) (hn : f.toNat + n.toNat ≤ 64) :
    readQueueOwn f n s =
      .accept s false
        (u8 s.queue.length ++ u8 s.queueRoom ++ be32 s.arrival ++ be32 s.timer.counter ++ failureBytes s.lastFailure ++
          s.queueWindow f.toNat n.toNat) :=
  if_neg (by omega)

theorem readOverridesOwn_reads (w : Option Window) (s : State) (hw : w.all forceWindowFits = true) :
    readOverridesOwn w s =
      .accept s false
        ((List.range 4).flatMap (fun m => (s.master m).bytes) ++ u16 s.workLight ++ mark s.wltPin ++ mark s.wltRendered ++
          u16 s.forces.entries.length ++ u8 s.freezes.entries.length ++ (w.map s.forceWindow).getD []) := by
  rw [readOverridesOwn, hw]
  rfl

theorem readCueOwn_reads (c : Half) (w : Option Window) (s : State) (hc : c.toNat ≤ 511)
    (he : w.isSome = true → (s.cue c.toNat).state ≠ .empty) (hw : w.all (s.cue c.toNat).windowFits = true) :
    readCueOwn c w s = .accept s false (s.cueBytes c.toNat ++ (w.map (s.actionWindow c.toNat)).getD []) := by
  cases w with
  | none => simp [readCueOwn, Nat.not_lt.2 hc]
  | some w =>
    have fits : (s.cue c.toNat).windowFits w = true := hw
    simp [readCueOwn, Nat.not_lt.2 hc, he rfl, fits]

/-- The two list codes (R188). -/
theorem listOf_of_le (l : Byte) (hl : l.toNat ≤ 1) : listOf l = some l.toNat := by
  have codes : l = 0 ∨ l = 1 := by
    rcases Nat.le_one_iff_eq_zero_or_eq_one.1 hl with h | h
    · exact .inl (BitVec.eq_of_toNat_eq h)
    · exact .inr (BitVec.eq_of_toNat_eq h)
  rcases codes with rfl | rfl <;> rfl

theorem readListOwn_reads (l : Byte) (s : State) (hl : l.toNat ≤ 1) :
    readListOwn l s =
      .accept s false ((s.list l.toNat).bytes ++ u16 (s.chain l.toNat).length ++
        (s.chain l.toNat).flatMap fun c => u16 c ++ u8 (s.cue c).state.code) := by
  rw [readListOwn, listOf_of_le l hl]

/-- Settles O31: what the awaited work leaves, and each read's own checks on the state it leaves. -/
theorem readsWithoutClearComplete : Obligations.ReadsWithoutClearComplete := by
  refine ⟨?_, ?_⟩
  · intro s
    exact ⟨s.settleToPass_application, s.settleToPass_counts, s.settleToPass_still, s.evaluateAll_done,
      s.evaluateAll_none 40⟩
  · intro s h p u
    refine ⟨?_, ?_, ?_, ?_, ?_⟩
    · intro k w a hk
      have address := p.readAddress_slot k hk
      refine ⟨?_, ?_⟩
      · rintro hr rfl
        exact exec_accepted s p h _ false _ rfl a (readContributionOwn_free p _ k.toNat address hr)
      · intro c hr hw
        exact exec_accepted s p h _ false _ rfl a (readContributionOwn_record p _ w k.toNat c address hr hw)
    · intro f n a hf hn
      have own := readQueueOwn_reads f n (s.met h) hf hn
      rw [State.met_queue, State.met_queueRoom, State.met_arrival, State.met_timer, State.met_lastFailure,
        State.met_queueWindow] at own
      exact exec_accepted s _ h _ false _ rfl a own
    · intro w a hw
      exact exec_accepted s p h _ false _ rfl a (readOverridesOwn_reads w p hw)
    · intro c w a hc he hw
      exact exec_accepted s u h _ false _ rfl a (readCueOwn_reads c w u hc he hw)
    · intro l a hl
      exact exec_accepted s u h _ false _ rfl a (readListOwn_reads l u hl)

end Sys2Proof.Machine
end

section
/-! PROOF. Going on with a frame start's work (R72, R96, R129, R149, R158, R162): the five counts have one shape, from which
each item is counted once and the ends join in ascending number; and the cases in which nothing goes on. -/

namespace Sys2Proof.Machine

/-! ### The shape of a count -/

/-- What one count makes of an item: it rests, it becomes another record, or its count ends and is left to a step of its own
(log 4). -/
inductive Count (α : Type) where
  | rests
  | becomes (x : α)
  | ends

/-- The record that a count leaves of a record. -/
def Count.leaves {α : Type} (x : α) : Count α → α
  | .rests => x
  | .becomes y => y
  | .ends => x

def Count.isEnd {α : Type} : Count α → Bool
  | .rests => false
  | .becomes _ => false
  | .ends => true

/-- A kind of numbered items that frame starts count: how an item is read and written, the due ends of the kind and how
one joins them, and what of a state `t` the counts of the kind take over into a state `s` (`part s t`). -/
structure CountedKind (α : Type) where
  item : State → Nat → α
  put : State → Nat → α → State
  due : State → List Nat
  join : State → Nat → State
  part : State → State → State

/-- What the count of item k of a kind makes of a state. -/
def CountedKind.after {α : Type} (c : CountedKind α) (s : State) (k : Nat) : Count α → State
  | .rests => s
  | .becomes x => c.put s k x
  | .ends => c.join s k

theorem CountedKind.after_ite {α : Type} (c : CountedKind α) (s : State) (k : Nat) {p : Prop} [Decidable p]
    (a b : Count α) : c.after s k (if p then a else b) = if p then c.after s k a else c.after s k b := by
  split
  · rfl
  · rfl

/-- The count of item k of a kind by a rule. -/
def CountedKind.count {α : Type} (c : CountedKind α) (rule : α → Count α) (s : State) (k : Nat) : State :=
  c.after s k (rule (c.item s k))

/-- The accessors of a kind agree with each other. -/
structure CountedKind.Lawful {α : Type} (c : CountedKind α) : Prop where
  item_put : ∀ s k x j, c.item (c.put s k x) j = if j = k then x else c.item s j
  item_join : ∀ s k j, c.item (c.join s k) j = c.item s j
  due_put : ∀ s k x, c.due (c.put s k x) = c.due s
  due_join : ∀ s k, c.due (c.join s k) = c.due s ++ [k]
  part_put : ∀ s k x, c.part s (c.put s k x) = c.put s k x
  part_join : ∀ s k, c.part s (c.join s k) = c.join s k
  part_self : ∀ s, c.part s s = s
  part_part : ∀ s t u, c.part (c.part s t) u = c.part s u

section
variable {α : Type} {c : CountedKind α} (h : c.Lawful) (rule : α → Count α)
include h

theorem CountedKind.Lawful.item_count (s : State) (k j : Nat) :
    c.item (c.count rule s k) j = if j = k then (rule (c.item s k)).leaves (c.item s k) else c.item s j := by
  have same : c.item s j = if j = k then c.item s k else c.item s j := by
    split
    · rename_i hj
      rw [hj]
    · rfl
  unfold CountedKind.count
  cases rule (c.item s k) with
  | rests => exact same
  | becomes x => exact h.item_put s k x j
  | ends => exact (h.item_join s k j).trans same

theorem CountedKind.Lawful.due_count (s : State) (k : Nat) :
    c.due (c.count rule s k) = c.due s ++ if (rule (c.item s k)).isEnd then [k] else [] := by
  unfold CountedKind.count
  cases rule (c.item s k) with
  | rests => exact (List.append_nil _).symm
  | becomes x => exact (h.due_put s k x).trans (List.append_nil _).symm
  | ends => exact h.due_join s k

theorem CountedKind.Lawful.part_count (s : State) (k : Nat) : c.part s (c.count rule s k) = c.count rule s k := by
  unfold CountedKind.count
  cases rule (c.item s k) with
  | rests => exact h.part_self s
  | becomes x => exact h.part_put s k x
  | ends => exact h.part_join s k

/-- Several counts of a kind change nothing but the kind's part. -/
theorem CountedKind.Lawful.part_each (t : State) (l : List Nat) :
    c.part t (t.each (c.count rule) l) = t.each (c.count rule) l := by
  induction l generalizing t with
  | nil => exact h.part_self t
  | cons k ks ih =>
    calc c.part t ((c.count rule t k).each (c.count rule) ks)
      _ = c.part (c.part t (c.count rule t k)) ((c.count rule t k).each (c.count rule) ks) := (h.part_part _ _ _).symm
      _ = c.part (c.count rule t k) ((c.count rule t k).each (c.count rule) ks) := by rw [h.part_count]
      _ = (c.count rule t k).each (c.count rule) ks := ih _

/-- The count of an item ends where it would end in any state with the item. -/
theorem CountedKind.Lawful.isEnd_eq (s : State) (k : Nat) :
    (rule (c.item s k)).isEnd = (c.due (c.count rule s k) != c.due s) := by
  rw [h.due_count]
  cases (rule (c.item s k)).isEnd <;> simp

/-- The items below n and the due ends of a kind, as they stand in `s`: each item is counted once, those that end join the
due ends in ascending number, and nothing but the kind's part changes. -/
theorem CountedKind.Lawful.each_range {f : State → Nat → State} (hf : f = c.count rule) (s t : State) (n : Nat)
    (same : c.item t = c.item s ∧ c.due t = c.due s) :
    (∀ j, c.item (t.each f (List.range n)) j = if j < n then c.item (f s j) j else c.item s j) ∧
      c.due (t.each f (List.range n)) = c.due s ++ ((List.range n).filter fun k => c.due (f s k) != c.due s) ∧
      c.part t (t.each f (List.range n)) = t.each f (List.range n) := by
  subst hf
  obtain ⟨sameItem, sameDue⟩ := same
  obtain ⟨items, dues⟩ := State.each_counts c.item c.due (fun _ x => (rule x).leaves x) (fun _ x => (rule x).isEnd)
    (h.item_count rule) (h.due_count rule) t (List.range n) List.nodup_range
  refine ⟨fun j => ?_, ?_, h.part_each rule t _⟩
  · rw [items, h.item_count, if_pos rfl, sameItem]
    simp only [List.mem_range]
  · rw [dues, sameDue, sameItem]
    exact congrArg _ (List.filter_congr fun k _ => h.isEnd_eq rule s k)

end

/-! ### The five kinds -/

def slotKind : CountedKind Slot where
  item := State.slot
  put := State.setSlot
  due s := s.work.fadesDue
  join s k := s.setWork { s.work with fadesDue := s.work.fadesDue ++ [k] }
  part s t := { s with slots := t.slots, work := { s.work with fadesDue := t.work.fadesDue } }

def masterKind : CountedKind Master where
  item := State.master
  put := State.setMaster
  due s := s.work.mastersDue
  join s m := s.setWork { s.work with mastersDue := s.work.mastersDue ++ [m] }
  part s t := { s with masters := t.masters, work := { s.work with mastersDue := t.work.mastersDue } }

def plateKind : CountedKind Plate where
  item := State.plate
  put := State.setPlate
  due s := s.work.platesDue
  join s p := s.setWork { s.work with platesDue := s.work.platesDue ++ [p] }
  part s t := { s with plates := t.plates, work := { s.work with platesDue := t.work.platesDue } }

def tileKind : CountedKind Tile where
  item := State.tile
  put := State.setTile
  due s := s.work.dissolvesDue
  join s t := s.setWork { s.work with dissolvesDue := s.work.dissolvesDue ++ [t] }
  part s t := { s with tiles := t.tiles, work := { s.work with dissolvesDue := t.work.dissolvesDue } }

def linkKind : CountedKind Link where
  item := State.link
  put := State.setLink
  due s := s.work.wakesDue
  join s l := s.setWork { s.work with wakesDue := s.work.wakesDue ++ [l] }
  part s t := { s with links := t.links, work := { s.work with wakesDue := t.work.wakesDue } }

theorem slotKind_lawful : slotKind.Lawful :=
  ⟨fun _ _ _ _ => Table.get_set _ _ _ _ _, fun _ _ _ => rfl, fun _ _ _ => rfl, fun _ _ => rfl, fun _ _ _ => rfl,
    fun _ _ => rfl, fun _ => rfl, fun _ _ _ => rfl⟩

theorem masterKind_lawful : masterKind.Lawful :=
  ⟨fun _ _ _ _ => Table.get_set _ _ _ _ _, fun _ _ _ => rfl, fun _ _ _ => rfl, fun _ _ => rfl, fun _ _ _ => rfl,
    fun _ _ => rfl, fun _ => rfl, fun _ _ _ => rfl⟩

theorem plateKind_lawful : plateKind.Lawful :=
  ⟨fun _ _ _ _ => Table.get_set _ _ _ _ _, fun _ _ _ => rfl, fun _ _ _ => rfl, fun _ _ => rfl, fun _ _ _ => rfl,
    fun _ _ => rfl, fun _ => rfl, fun _ _ _ => rfl⟩

theorem tileKind_lawful : tileKind.Lawful :=
  ⟨fun _ _ _ _ => Table.get_set _ _ _ _ _, fun _ _ _ => rfl, fun _ _ _ => rfl, fun _ _ => rfl, fun _ _ _ => rfl,
    fun _ _ => rfl, fun _ => rfl, fun _ _ _ => rfl⟩

theorem linkKind_lawful : linkKind.Lawful :=
  ⟨fun _ _ _ _ => Table.get_set _ _ _ _ _, fun _ _ _ => rfl, fun _ _ _ => rfl, fun _ _ => rfl, fun _ _ _ => rfl,
    fun _ _ => rfl, fun _ => rfl, fun _ _ _ => rfl⟩

/-! ### The rules of the counts -/

/-- The fade count of a slot (R72). -/
def Slot.fadeCount (x : Slot) : Count Slot :=
  match x.record with
  | none => .rests
  | some c =>
    if !c.counted then (if c.fresh then .becomes ⟨x.gen, some { c with fresh := false }⟩ else .rests)
    else if c.phase = .fadingIn ∧ c.elapsed + 1 < c.fadeIn then
      .becomes ⟨x.gen, some { c with elapsed := c.elapsed + 1 }⟩
    else if c.phase = .fadingOut ∧ 1 < c.remaining then .becomes ⟨x.gen, some { c with remaining := c.remaining - 1 }⟩
    else .ends

/-- The count of a master (R129). -/
def Master.fadeCount (x : Master) : Count Master :=
  if x.state = .steady then .rests
  else if x.fresh then .becomes { x with fresh := false }
  else if x.elapsed + 1 < x.length then
    .becomes { x with elapsed := x.elapsed + 1, level := mixLevel x.start x.target (x.elapsed + 1) x.length }
  else .ends

/-- The advance of a plate (R149). -/
def Plate.holdCount (x : Plate) : Count Plate :=
  if x.state ≠ .playing ∨ x.wasPlaying = false then .rests
  else if x.held + 1 < x.hold then .becomes { x with held := x.held + 1 }
  else .ends

/-- The count of a tile's dissolve (R158). -/
def Tile.dissolveCount (x : Tile) : Count Tile :=
  if x.fromSource.isNone then .rests
  else if x.elapsed + 1 < x.fields.dissolve then .becomes { x with elapsed := x.elapsed + 1 }
  else .ends

/-- The count of a link's wake (R162). -/
def Link.wakeDelayCount (x : Link) : Count Link :=
  if x.state ≠ .waking then .rests
  else if x.wakeCount + 1 < x.wakeDelay then .becomes { x with wakeCount := x.wakeCount + 1 }
  else .ends

theorem State.countFade_eq : State.countFade = slotKind.count Slot.fadeCount := by
  funext s k
  show s.countFade k = slotKind.after s k (s.slot k).fadeCount
  unfold State.countFade Slot.fadeCount
  cases (s.slot k).record with
  | none => rfl
  | some c =>
    dsimp only
    rw [CountedKind.after_ite, CountedKind.after_ite, CountedKind.after_ite, CountedKind.after_ite]
    rfl

theorem State.countMaster_eq : State.countMaster = masterKind.count Master.fadeCount := by
  funext s m
  show s.countMaster m = masterKind.after s m (s.master m).fadeCount
  unfold Master.fadeCount
  rw [CountedKind.after_ite, CountedKind.after_ite, CountedKind.after_ite]
  rfl

theorem State.countPlate_eq : State.countPlate = plateKind.count Plate.holdCount := by
  funext s p
  show s.countPlate p = plateKind.after s p (s.plate p).holdCount
  unfold Plate.holdCount
  rw [CountedKind.after_ite, CountedKind.after_ite]
  rfl

theorem State.countDissolve_eq : State.countDissolve = tileKind.count Tile.dissolveCount := by
  funext s t
  show s.countDissolve t = tileKind.after s t (s.tile t).dissolveCount
  unfold Tile.dissolveCount
  rw [CountedKind.after_ite, CountedKind.after_ite]
  rfl

theorem State.countWake_eq : State.countWake = linkKind.count Link.wakeDelayCount := by
  funext s l
  show s.countWake l = linkKind.after s l (s.link l).wakeDelayCount
  unfold Link.wakeDelayCount
  rw [CountedKind.after_ite, CountedKind.after_ite]
  rfl

/-! ### The counts of a frame start -/

/-- A state that five changes lead to, each of its own kind's part, has each part as its own change left it. -/
theorem State.five_parts {s a b c d u : State} (ha : slotKind.part s a = a) (hb : masterKind.part a b = b)
    (hc : plateKind.part b c = c) (hd : tileKind.part c d = d) (hu : linkKind.part d u = u) :
    u = { s with
      slots := a.slots, masters := b.masters, plates := c.plates, tiles := d.tiles, links := u.links
      work := { s.work with
        fadesDue := a.work.fadesDue, mastersDue := b.work.mastersDue, platesDue := c.work.platesDue
        dissolvesDue := d.work.dissolvesDue, wakesDue := u.work.wakesDue } } := by
  rw [← hu, ← hd, ← hc, ← hb, ← ha]
  rfl

/-- `u` is `s` with each of its items counted once, and the ends that are due in ascending number. -/
structure CountedOnce (s u : State) : Prop where
  frame : u = { s with
    slots := u.slots, masters := u.masters, plates := u.plates, tiles := u.tiles, links := u.links
    work := { s.work with
      phase := .counting
      fadesDue := s.work.fadesDue ++
        (List.range 192).filter fun k => (s.countFade k).work.fadesDue != s.work.fadesDue
      mastersDue := s.work.mastersDue ++
        (List.range 4).filter fun m => (s.countMaster m).work.mastersDue != s.work.mastersDue
      platesDue := s.work.platesDue ++
        (List.range 8).filter fun p => (s.countPlate p).work.platesDue != s.work.platesDue
      dissolvesDue := s.work.dissolvesDue ++
        (List.range 64).filter fun k => (s.countDissolve k).work.dissolvesDue != s.work.dissolvesDue
      wakesDue := s.work.wakesDue ++
        (List.range 4).filter fun l => (s.countWake l).work.wakesDue != s.work.wakesDue } }
  slots : ∀ k, u.slot k = if k < 192 then (s.countFade k).slot k else s.slot k
  masters : ∀ m, u.master m = if m < 4 then (s.countMaster m).master m else s.master m
  plates : ∀ p, u.plate p = if p < 8 then (s.countPlate p).plate p else s.plate p
  tiles : ∀ k, u.tile k = if k < 64 then (s.countDissolve k).tile k else s.tile k
  links : ∀ l, u.link l = if l < 4 then (s.countWake l).link l else s.link l

/-- The five counts one after another, each of which meets its items as they stood before all of them. -/
theorem State.beginCounting_countedOnce (s : State) : CountedOnce s s.beginCounting := by
  unfold State.beginCounting
  dsimp only
  obtain ⟨slots, fades, partA⟩ := slotKind_lawful.each_range Slot.fadeCount State.countFade_eq s
    (s.setWork { s.work with phase := .counting }) 192 ⟨rfl, rfl⟩
  generalize (s.setWork { s.work with phase := .counting }).each State.countFade (List.range 192) = a
    at slots fades partA ⊢
  obtain ⟨masters, ends, partB⟩ := masterKind_lawful.each_range Master.fadeCount State.countMaster_eq s a 4 (by
    rw [← partA]
    exact ⟨rfl, rfl⟩)
  generalize a.each State.countMaster (List.range 4) = b at masters ends partB ⊢
  obtain ⟨plates, holds, partC⟩ := plateKind_lawful.each_range Plate.holdCount State.countPlate_eq s b 8 (by
    rw [← partB, ← partA]
    exact ⟨rfl, rfl⟩)
  generalize b.each State.countPlate (List.range 8) = c at plates holds partC ⊢
  obtain ⟨tiles, dissolves, partD⟩ := tileKind_lawful.each_range Tile.dissolveCount State.countDissolve_eq s c 64 (by
    rw [← partC, ← partB, ← partA]
    exact ⟨rfl, rfl⟩)
  generalize c.each State.countDissolve (List.range 64) = d at tiles dissolves partD ⊢
  obtain ⟨links, wakes, partU⟩ := linkKind_lawful.each_range Link.wakeDelayCount State.countWake_eq s d 4 (by
    rw [← partD, ← partC, ← partB, ← partA]
    exact ⟨rfl, rfl⟩)
  generalize d.each State.countWake (List.range 4) = u at links wakes partU ⊢
  have frame := State.five_parts partA partB partC partD partU
  have slotsU : u.slots = a.slots := (congrArg State.slots frame :)
  have mastersU : u.masters = b.masters := (congrArg State.masters frame :)
  have platesU : u.plates = c.plates := (congrArg State.plates frame :)
  have tilesU : u.tiles = d.tiles := (congrArg State.tiles frame :)
  dsimp only [slotKind, masterKind, plateKind, tileKind, linkKind] at fades ends holds dissolves wakes
  rw [fades, ends, holds, dissolves, wakes, ← slotsU, ← mastersU, ← platesU, ← tilesU] at frame
  refine ⟨frame, fun k => ?_, fun m => ?_, fun p => ?_, fun k => ?_, links⟩
  · exact (congrArg (fun x : Table Slot => x.get Slot.por k) slotsU).trans (slots k)
  · exact (congrArg (fun x : Table Master => x.get Master.por m) mastersU).trans (masters m)
  · exact (congrArg (fun x : Table Plate => x.get Plate.por p) platesU).trans (plates p)
  · exact (congrArg (fun x : Table Tile => x.get Tile.por k) tilesU).trans (tiles k)

/-- The counts begin and, where none of them ends, the render pass (R96). -/
theorem State.advance_counts (s : State) (hp : s.work.phase = .applying) (hd : s.noneDue = true)
    (hl : s.work.lossDue = []) :
    s.advance = if s.beginCounting.work.counted then s.beginCounting.beginRender else s.beginCounting := by
  have begun : s.tryCount = s.beginCounting := if_pos ⟨hp, hd, hl⟩
  have counting : s.beginCounting.work.phase = .counting := by
    rw [s.beginCounting_countedOnce.frame]
  rw [State.advance, begun, State.tryRender]
  simp only [counting, true_and]

theorem State.tryCount_not_applying (s : State) (h : s.work.phase ≠ .applying) : s.tryCount = s :=
  if_neg fun ⟨applying, _⟩ => h applying

/-- A due entry or an outstanding loss holds the counts back. -/
theorem State.advance_waits (s : State) (hp : s.work.phase = .applying)
    (h : s.noneDue = false ∨ s.work.lossDue ≠ []) : s.advance = s := by
  have waits : s.tryCount = s := if_neg (by rcases h with h | h <;> simp [h])
  rw [State.advance, waits]
  exact if_neg (by simp [hp])

theorem Work.counted_iff (w : Work) :
    w.counted = true ↔
      w.fadesDue = [] ∧ w.mastersDue = [] ∧ w.platesDue = [] ∧ w.dissolvesDue = [] ∧ w.wakesDue = [] := by
  simp [Work.counted, and_assoc]

theorem State.advance_counting (s : State) (hp : s.work.phase = .counting) :
    s.advance = if s.work.counted then s.beginRender else s := by
  rw [State.advance, s.tryCount_not_applying (by simp [hp]), State.tryRender]
  simp only [hp, true_and]

/-- Settles O10: the frame of going on, its cases by the phase, and the counts by their one shape. -/
theorem theFramesOwnWorkLeavesTheRest : Obligations.TheFramesOwnWorkLeavesTheRest := by
  intro s
  refine ⟨(Advanced.advance s).frame, s.advance_still, s.advance_waits, Work.counted_iff,
    fun hp => ⟨fun hc => ?_, fun hc => ?_⟩, fun hp hd hl => ?_⟩
  · rw [s.advance_counting hp, if_pos hc]
  · rw [s.advance_counting hp, hc]
    rfl
  · obtain ⟨frame, slots, masters, plates, tiles, links⟩ := s.beginCounting_countedOnce
    exact ⟨s.beginCounting, frame, slots, masters, plates, tiles, links, s.advance_counts hp hd hl⟩

end Sys2Proof.Machine
end

section
/-! PROOF. The entries of forces, freezes, masters and plates at their turn (R85, R121, R122, R124, R128, R148): forces
written point by point, and the application of each entry. -/

namespace Sys2Proof.Machine

/-! ### Forces written point by point (R121, R122) -/

/-- The force at `place i` becomes `v i`, for each i of a list in turn. -/
def State.setForces (s : State) (place : Nat → Nat) (v : Nat → Option Force) (l : List Nat) : State :=
  s.each (fun t i => t.setForce (place i) (v i)) l

section
variable (s : State) (place : Nat → Nat) (v : Nat → Option Force) (l : List Nat)

theorem State.setForces_frame :
    s.setForces place v l = { s with forces := (s.setForces place v l).forces } := by
  unfold State.setForces
  induction l generalizing s with
  | nil => rfl
  | cons i is ih =>
    rw [State.each, ih]
    rfl

theorem State.force_setForces_other (p : Nat) (hp : p ∉ l.map place) : (s.setForces place v l).force p = s.force p := by
  unfold State.setForces
  induction l generalizing s with
  | nil => rfl
  | cons i is ih =>
    obtain ⟨head, tail⟩ := List.ne_and_not_mem_of_not_mem_cons hp
    rw [State.each, ih _ tail, State.force_setForce_other _ _ _ _ head]

/-- A point that is written has the value written, where all writes to it are of one value. -/
theorem State.force_setForces (p : Nat) (x : Option Force) (hp : p ∈ l.map place)
    (one : ∀ i ∈ l, place i = p → v i = x) : (s.setForces place v l).force p = x := by
  induction l generalizing s with
  | nil => simp at hp
  | cons i is ih =>
    obtain ⟨head, tail⟩ := List.forall_mem_cons.1 one
    by_cases later : p ∈ is.map place
    · exact ih (s.setForce (place i) (v i)) later tail
    · have here : p = place i := (List.mem_cons.1 hp).resolve_right later
      have last := (s.setForce (place i) (v i)).force_setForces_other place v is p later
      calc (s.setForces place v (i :: is)).force p
        _ = (s.setForce (place i) (v i)).force p := last
        _ = v i := by rw [here, State.force_setForce]
        _ = x := head here.symm

end

/-- Over a group of stride at least 1 a selector covers different points at different positions (R33). -/
theorem State.coveredPoint_injective (s : State) (x : Selector) (hs : 1 ≤ (s.group x.group).stride) :
    Function.Injective (s.coveredPoint x) := by
  intro i j same
  have products : (x.first + i) * (s.group x.group).stride = (x.first + j) * (s.group x.group).stride := by
    unfold State.coveredPoint at same
    omega
  exact Nat.add_left_cancel (Nat.eq_of_mul_eq_mul_right hs products)

theorem applyForceSet_permitted (s : State) (e : Entry) (x : Selector) (m : ForceMode) (v : LevelSpec)
    (own : s.forceForeign e.source x = false) (suits : s.forceUnsuits x m v = false) :
    applyForceSet s e x m v =
      s.setForces (s.coveredPoint x) (fun i => some ⟨m, v.at i, e.source⟩) (List.range x.count) := by
  rw [applyForceSet, own, suits]
  rfl

theorem applyForceClear_permitted (s : State) (e : Entry) (x : Selector) (own : s.forceForeign e.source x = false) :
    applyForceClear s e x = s.setForces (s.coveredPoint x) (fun _ => none) (List.range x.count) := by
  rw [applyForceClear, own]
  rfl

/-! ### Freezes and masters (R124, R128) -/

theorem applyFreeze_below (s : State) (e : Entry) (g : Nat) (hg : s.freezeCount g < 255) :
    applyFreeze s e g = s.setFreezeCount g (s.freezeCount g + 1) := if_neg (Nat.not_le.2 hg)

theorem applyThaw_frozen (s : State) (e : Entry) (g : Nat) (hg : 0 < s.freezeCount g) :
    applyThaw s e g = s.setFreezeCount g (s.freezeCount g - 1) := if_neg (Nat.ne_of_gt hg)

theorem applyMasterSet_eq (s : State) (m v f : Nat) :
    applyMasterSet s m v f = s.setMaster m
      (if f = 0 then { state := .steady, level := v, start := 0, target := v, length := 0, elapsed := 0, fresh := false }
      else { state := .fading, level := (s.master m).level, start := (s.master m).level, target := v, length := f,
             elapsed := 0, fresh := true }) :=
  (apply_ite (s.setMaster m) _ _ _).symm

/-! ### Entries at their turn -/

/-- An application row whose kind is the next due entry's applies that entry and goes on (R85, log 4). -/
theorem State.applyRow_dueFirst (s : State) (e : Entry) (rest : List Entry) (due : DueFirst s e rest) (b : EntryBody)
    (hb : e.body = b) (t : State) (ht : ({ s with queue := rest }).applyEntry e = t) :
    (.next (s.applyRow b.kind) : Meaning) = .next t.advance := by
  obtain ⟨running, first⟩ := due
  rw [s.applyRow_front b.kind e rest running first (congrArg EntryBody.kind hb), ht]

/-- Settles O41: each application row applies its entry first of all, and the entry does what its kind's lemma says; a
force's points differ, so each keeps the value of its own position. -/
theorem overrideAndPlateEntriesApply : Obligations.OverrideAndPlateEntriesApply := by
  refine ⟨fun s e rest due => ?_, fun s e rest p due => ?_⟩
  · have row := s.applyRow_dueFirst e rest due
    refine ⟨fun x m v hb stride own suits => ?_, fun x hb own => ?_, fun g hb hg => ?_, fun g hb hg => ?_,
      fun m v f hb => ?_⟩
    · let u : State := { s with queue := rest }
      let value (i : Nat) : Option Force := some ⟨m, v.at i, e.source⟩
      have applied : u.applyEntry e = u.setForces (s.coveredPoint x) value (List.range x.count) := by
        rw [State.applyEntry, hb]
        exact applyForceSet_permitted u e x m v own suits
      refine ⟨_, row _ hb _ applied, u.setForces_frame _ _ _, fun i hi => ?_, u.force_setForces_other _ _ _⟩
      refine u.force_setForces _ _ _ _ _ (List.mem_map_of_mem (List.mem_range.2 hi)) fun j _ same => ?_
      exact congrArg value (s.coveredPoint_injective x stride same)
    · let u : State := { s with queue := rest }
      have applied : u.applyEntry e = u.setForces (s.coveredPoint x) (fun _ => none) (List.range x.count) := by
        rw [State.applyEntry, hb]
        exact applyForceClear_permitted u e x own
      exact ⟨_, row _ hb _ applied, u.setForces_frame _ _ _, fun p hp => u.force_setForces _ _ _ p _ hp fun _ _ _ => rfl,
        u.force_setForces_other _ _ _⟩
    · refine row _ hb _ ?_
      rw [State.applyEntry, hb]
      exact applyFreeze_below { s with queue := rest } e g hg
    · refine row _ hb _ ?_
      rw [State.applyEntry, hb]
      exact applyThaw_frozen { s with queue := rest } e g hg
    · refine row _ hb _ ?_
      rw [State.applyEntry, hb]
      exact applyMasterSet_eq { s with queue := rest } m v f
  · refine ⟨fun hb => ?_, fun hb => ?_⟩
    · refine s.applyRow_dueFirst e rest due _ hb _ ?_
      rw [State.applyEntry, hb]
      rfl
    · refine s.applyRow_dueFirst e rest due _ hb _ ?_
      rw [State.applyEntry, hb]
      rfl

end Sys2Proof.Machine
end

section
/-! PROOF. The two rounding rules (R99, R100): each is a quotient rounded by half of its divisor. -/

namespace Sys2Proof.Machine

/-! ### Quotients rounded by half of the divisor -/

section
variable {F : Nat} (hF : 0 < F)
include hF

theorem half_div_self : F / 2 / F = 0 := Nat.div_eq_of_lt (Nat.div_lt_self hF (by decide))

theorem mul_self_add_half_div (x : Nat) : (x * F + F / 2) / F = x := by
  rw [Nat.mul_comm, Nat.mul_add_div hF, half_div_self hF, Nat.add_zero]

/-- A part of at most the whole never rounds above the whole. -/
theorem mul_add_half_div_le (x e : Nat) (he : e ≤ F) : (x * e + F / 2) / F ≤ x :=
  calc (x * e + F / 2) / F
    _ ≤ (x * F + F / 2) / F := Nat.div_le_div_right (Nat.add_le_add_right (Nat.mul_le_mul_left x he) _)
    _ = x := mul_self_add_half_div hF x

end

/-! ### The rounded mix (R99) -/

section
variable (d : Int) (e F : Nat)

theorem roundedMix_of_nonneg (hd : 0 ≤ d) : roundedMix d e F = ((d.natAbs * e + F / 2) / F : Nat) :=
  if_neg (Int.not_lt.2 hd)

theorem roundedMix_of_neg (hd : d < 0) : roundedMix d e F = -((d.natAbs * e + F / 2) / F : Nat) := if_pos hd

theorem roundedMix_natAbs : (roundedMix d e F).natAbs = (d.natAbs * e + F / 2) / F := by
  rcases Int.lt_or_le d 0 with neg | nonneg
  · rw [roundedMix_of_neg d e F neg, Int.natAbs_neg, Int.natAbs_natCast]
  · rw [roundedMix_of_nonneg d e F nonneg, Int.natAbs_natCast]

theorem roundedMix_nonneg (hd : 0 ≤ d) : 0 ≤ roundedMix d e F := by
  rw [roundedMix_of_nonneg d e F hd]
  exact Int.natCast_nonneg _

variable {F} (hF : 0 < F)
include hF

theorem roundedMix_zero_left : roundedMix 0 e F = 0 := by
  simp [roundedMix_of_nonneg, half_div_self hF]

theorem roundedMix_nonpos (hd : d ≤ 0) : roundedMix d e F ≤ 0 := by
  rcases Int.lt_or_eq_of_le hd with neg | rfl
  · rw [roundedMix_of_neg d e F neg]
    exact Int.neg_nonpos_of_nonneg (Int.natCast_nonneg _)
  · exact Int.le_of_eq (roundedMix_zero_left e hF)

theorem roundedMix_start : roundedMix d 0 F = 0 := by
  rw [← Int.natAbs_eq_zero, roundedMix_natAbs, Nat.mul_zero, Nat.zero_add, half_div_self hF]

theorem roundedMix_end : roundedMix d F F = d := by
  rcases Int.lt_or_le d 0 with neg | nonneg
  · rw [roundedMix_of_neg d F F neg, mul_self_add_half_div hF]
    omega
  · rw [roundedMix_of_nonneg d F F nonneg, mul_self_add_half_div hF]
    omega

theorem roundedMix_natAbs_le (he : e ≤ F) : (roundedMix d e F).natAbs ≤ d.natAbs := by
  rw [roundedMix_natAbs]
  exact mul_add_half_div_le hF _ e he

end

/-! ### A level moved by the mix of its distance from another (R99) -/

section
variable (a b e : Nat) {F : Nat}

theorem mixLevel_rise (h : a ≤ b) : mixLevel a b e F = a + ((b - a) * e + F / 2) / F := by
  have distance : ((b : Int) - a).natAbs = b - a := by omega
  rw [mixLevel, roundedMix_of_nonneg _ e F (by omega), distance, ← Int.natCast_add, Int.toNat_natCast]

variable (hF : 0 < F)
include hF

theorem mixLevel_fall (h : b ≤ a) : mixLevel a b e F = a - ((a - b) * e + F / 2) / F := by
  have distance : ((b : Int) - a).natAbs = a - b := by omega
  rcases Nat.lt_or_eq_of_le h with below | rfl
  · rw [mixLevel, roundedMix_of_neg _ e F (by omega), distance]
    omega
  · simp [mixLevel_rise, half_div_self hF]

variable (he : e ≤ F)
include he

/-- The mix reaches at most the other level, so the sum is not below 0. -/
theorem mixLevel_eq : ((mixLevel a b e F : Nat) : Int) = (a : Int) + roundedMix ((b : Int) - a) e F := by
  have reach := roundedMix_natAbs_le ((b : Int) - a) e hF he
  have rises := roundedMix_nonneg ((b : Int) - a) e F
  rw [mixLevel, Int.toNat_of_nonneg (by omega)]

theorem mixLevel_between : min a b ≤ mixLevel a b e F ∧ mixLevel a b e F ≤ max a b := by
  rcases Nat.le_total a b with h | h
  · have reach := mul_add_half_div_le hF (b - a) e he
    rw [mixLevel_rise a b e h, Nat.min_eq_left h, Nat.max_eq_right h]
    exact ⟨Nat.le_add_right a _, Nat.le_trans (Nat.add_le_add_left reach a) (Nat.le_of_eq (Nat.add_sub_of_le h))⟩
  · have reach := mul_add_half_div_le hF (a - b) e he
    rw [mixLevel_fall a b e hF h, Nat.min_eq_right h, Nat.max_eq_left h]
    exact ⟨Nat.le_trans (Nat.le_of_eq (Nat.sub_sub_self h).symm) (Nat.sub_le_sub_left reach a), Nat.sub_le a _⟩

end

/-- Over a distance of its own length a mix moves by its count. -/
theorem mixLevel_add_length (a e F : Nat) (hF : 0 < F) : mixLevel a (a + F) e F = a + e := by
  rw [mixLevel_rise _ _ _ (Nat.le_add_right a F), Nat.add_sub_cancel_left, Nat.mul_comm, mul_self_add_half_div hF]

/-! ### The level product (R100) -/

theorem levelProduct_full (a : Nat) : levelProduct a 65535 = a := mul_self_add_half_div (by decide) a

theorem levelProduct_zero (a : Nat) : levelProduct a 0 = 0 := by
  rw [levelProduct, Nat.mul_zero]

theorem levelProduct_le (a b : Nat) (hb : b ≤ 65535) : levelProduct a b ≤ a := mul_add_half_div_le (by decide) a b hb

/-- A product of two 16-bit numbers and half of a third stay below 2^32 (R99). -/
theorem mul_add_half_lt (x e F : Nat) (hx : x ≤ 65535) (he : e ≤ 65535) (hF : F ≤ 65535) : x * e + F / 2 < 4294967296 := by
  have product : x * e ≤ 65535 * 65535 := Nat.mul_le_mul hx he
  omega

/-- Settles O54: the mix by the sign of its difference, and the product as the mix of a level over 65535 steps. -/
theorem mixesAndProductsKeepTheirBounds : Obligations.MixesAndProductsKeepTheirBounds := by
  refine ⟨⟨fun d e F hF he => ?_, fun a b e F hF he => ?_, fun d e F => mul_add_half_lt d.natAbs e F⟩,
    fun a b ha hb => ?_⟩
  · exact ⟨roundedMix_natAbs d e F, roundedMix_nonneg d e F, roundedMix_nonpos d e hF, roundedMix_start d hF,
      roundedMix_end d hF, roundedMix_natAbs_le d e hF he, roundedMix_zero_left e hF⟩
  · obtain ⟨low, high⟩ := mixLevel_between a b e hF he
    exact ⟨mixLevel_eq a b e hF he, low, high, fun ha hb => Nat.le_trans high (Nat.max_le.2 ⟨ha, hb⟩)⟩
  · have le := levelProduct_le a b hb
    exact ⟨rfl, levelProduct_full a, levelProduct_zero a, le, Nat.le_trans le ha⟩

end Sys2Proof.Machine
end

section
/-! PROOF. The stages of a point behind its merge (R107 to R112, R116): each stage's rule, then their order. -/

namespace Sys2Proof.Machine

/-! ### Stages 5 to 7: force, master, work light (R107 to R109) -/

section
variable (s : State) (f : PointFields) (v : Nat)

theorem State.masterLevel_intensity (m : Nat) (hk : f.kind = .intensity) (hm : f.master = some m) :
    s.masterLevel f v = levelProduct v (s.master m).level := by
  rw [State.masterLevel, hk, hm]

theorem State.masterLevel_untouched (h : f.kind ≠ .intensity ∨ f.master = none) : s.masterLevel f v = v := by
  unfold State.masterLevel
  split
  case h_1 m hk hm => exact absurd h (by simp [hk, hm])
  case h_2 => rfl

theorem State.workLightLevel_lit (hw : s.wltSample = true) (hm : f.member = true) (hk : f.kind ≠ .source) :
    s.workLightLevel f v = max v s.workLight := by
  simp [State.workLightLevel, hw, hm, hk]

theorem State.workLightLevel_unlit (h : s.wltSample = false ∨ f.member = false) : s.workLightLevel f v = v := by
  rcases h with h | h <;> simp [State.workLightLevel, h]

end

/-! ### Stage 8: the curve (R110, R111) -/

/-- The segment of a curve that takes a level; the last level of all is in segment 15 with the 4095 below it. -/
def curveSegment (v : Nat) : Nat := min (v / 4096) 15

/-- The steps from a segment's first knot to its second. -/
def segmentWidth (k : Nat) : Nat := if k = 15 then 4095 else 4096

theorem segmentWidth_pos (k : Nat) : 0 < segmentWidth k := by
  unfold segmentWidth
  split <;> decide

theorem curveSegment_spec (v : Nat) (hv : v ≤ 65535) :
    curveSegment v ≤ 15 ∧ 4096 * curveSegment v ≤ v ∧ v - 4096 * curveSegment v ≤ segmentWidth (curveSegment v) := by
  unfold segmentWidth curveSegment
  split <;> omega

theorem curveLevel_eq (knots : List Nat) (v : Nat) :
    curveLevel knots v = mixLevel (knots.getD (curveSegment v) 0) (knots.getD (curveSegment v + 1) 0)
      (v - 4096 * curveSegment v) (segmentWidth (curveSegment v)) := rfl

/-- Every segment of the identity curve rises by its own width. -/
theorem identityCurve_knots :
    ∀ k ≤ 15, identityCurve.getD k 0 = 4096 * k ∧ identityCurve.getD (k + 1) 0 = 4096 * k + segmentWidth k := by
  decide

theorem curveLevel_identityCurve (v : Nat) (hv : v ≤ 65535) : curveLevel identityCurve v = v := by
  obtain ⟨segment, below, -⟩ := curveSegment_spec v hv
  obtain ⟨first, second⟩ := identityCurve_knots _ segment
  rw [curveLevel_eq, first, second, mixLevel_add_length _ _ _ (segmentWidth_pos _), Nat.add_sub_of_le below]

/-- Settles O55: over a segment of the identity curve the mix moves by the distance from the segment's first knot. -/
theorem theIdentityCurveReturnsEveryLevel : Obligations.TheIdentityCurveReturnsEveryLevel :=
  ⟨curveLevel_identityCurve, fun _ _ => rfl⟩

/-! ### Stage 9: the offset (R112) -/

theorem clampLevel_le (x : Int) : clampLevel x ≤ 65535 := by
  unfold clampLevel
  split
  · decide
  · split <;> omega

theorem clampLevel_within (x : Int) (h0 : 0 ≤ x) (h : x ≤ 65535) : (clampLevel x : Int) = x := by
  rw [clampLevel, if_neg (Int.not_lt.2 h0), if_neg (Int.not_lt.2 h), Int.toNat_of_nonneg h0]

theorem clampLevel_below (x : Int) (h : x < 0) : clampLevel x = 0 := if_pos h

theorem clampLevel_above (x : Int) (h : 65535 < x) : clampLevel x = 65535 := by
  rw [clampLevel, if_neg (by omega), if_pos h]

/-! ### The order of the stages (R116) -/

section
variable (s : State) (f : PointFields) (v : Nat)

theorem State.shapedLevel_source (hk : f.kind = .source) : s.shapedLevel f v = v := if_pos hk

theorem State.shapedLevel_staged (hk : f.kind ≠ .source) :
    s.shapedLevel f v =
      offsetLevel f.offset (curveLevel (s.curve f.curve) (s.workLightLevel f (s.masterLevel f v))) := if_neg hk

theorem State.shapedLevel_le (hk : f.kind ≠ .source) : s.shapedLevel f v ≤ 65535 := by
  rw [s.shapedLevel_staged f v hk]
  exact clampLevel_le _

end

/-- Settles O56: the rule of each stage, the curve as a mix along its segment, and the stages one behind the other. -/
theorem shapingStaysWithinRange : Obligations.ShapingStaysWithinRange := by
  refine ⟨fun v f o => ⟨rfl, rfl, rfl, rfl⟩, fun s f v => ?_, fun knots v hv => ?_, fun o v => ?_, fun s p => ?_,
    State.shapedLevel_le⟩
  · exact ⟨s.masterLevel_intensity f v, s.masterLevel_untouched f v, s.workLightLevel_lit f v,
      s.workLightLevel_unlit f v, s.shapedLevel_source f v⟩
  · obtain ⟨-, -, reach⟩ := curveSegment_spec v hv
    have width := segmentWidth_pos (curveSegment v)
    exact ⟨reach, mixLevel_rise _ _ _, mixLevel_fall _ _ _ width, mixLevel_between _ _ _ width reach⟩
  · exact ⟨clampLevel_le _, clampLevel_within _, clampLevel_below _, clampLevel_above _⟩
  · exact ⟨s.shapedLevel_staged _ _, s.shapedLevel_source _ _, rfl⟩

end Sys2Proof.Machine
end

section
/-! PROOF. Stage 10 (R113, R114): the held output, and when a point is frozen. -/

namespace Sys2Proof.Machine

/-! ### The listed records of a canonical store -/

theorem mem_of_lookupEntry {α : Type} {k : Nat} {v : α} {l : List (Nat × α)} (h : lookupEntry k l = some v) :
    (k, v) ∈ l := by
  induction l with
  | nil => cases h
  | cons e rest ih =>
    by_cases here : e.1 = k
    · simp only [lookupEntry, if_pos here, Option.some.injEq] at h
      rw [← here, ← h]
      exact List.mem_cons_self
    · simp only [lookupEntry, if_neg here] at h
      exact List.mem_cons_of_mem _ (ih h)

/-- In a rising list no number is listed twice, so a listed record is the one that is read. -/
theorem lookupEntry_of_mem {α : Type} {e : Nat × α} {l : List (Nat × α)} (rising : risingEntries l = true)
    (h : e ∈ l) : lookupEntry e.1 l = some e.2 := by
  induction l with
  | nil => cases h
  | cons d rest ih =>
    rcases List.mem_cons.1 h with rfl | later
    · simp [lookupEntry]
    · have above := risingEntries_head d rest rising e later
      rw [lookupEntry, if_neg (Nat.ne_of_lt above), ih (risingEntries_tail d rest rising) later]

theorem Table.get_of_mem {α : Type} [DecidableEq α] {t : Table α} {dflt : Nat → α} {e : Nat × α}
    (h : t.wf dflt = true) (he : e ∈ t.entries) : t.get dflt e.1 = e.2 := by
  simp only [Table.wf, Bool.and_eq_true] at h
  rw [Table.get, lookupEntry_of_mem h.1 he, Option.getD_some]

/-- A number that does not read as its default is listed with what it reads. -/
theorem Table.mem_of_get {α : Type} {t : Table α} {dflt : Nat → α} {k : Nat} (h : t.get dflt k ≠ dflt k) :
    (k, t.get dflt k) ∈ t.entries := by
  unfold Table.get at h ⊢
  cases found : lookupEntry k t.entries with
  | none => simp [found] at h
  | some v => exact mem_of_lookupEntry found

/-! ### When a point is frozen (R113) -/

theorem Group.spans_iff (g : Group) (p : Nat) : g.spans p = true ↔ g.base ≤ p ∧ p < g.base + g.count * g.stride := by
  simp [Group.spans]

theorem State.frozenNow_iff (s : State) (p : Nat) (hc : s.freezes.wf Freeze.por = true) :
    s.frozenNow p = true ↔ ∃ g, 0 < s.freezeCount g ∧ (s.group g).spans p = true := by
  simp only [State.frozenNow, List.any_eq_true, Bool.and_eq_true, decide_eq_true_eq]
  constructor
  · rintro ⟨e, listed, held, spans⟩
    have reads : s.freezeCount e.1 = e.2 := Table.get_of_mem hc listed
    exact ⟨e.1, by rw [reads]; exact held, spans⟩
  · rintro ⟨g, held, spans⟩
    exact ⟨(g, s.freezeCount g), Table.mem_of_get (Nat.ne_of_gt held), held, spans⟩

/-! ### The held output (R113, R114) -/

section
variable (prev : Result) (retake : Bool) (m : Merge) (v : Nat)

theorem holdLevel_free : holdLevel prev retake false m v = ⟨m.level, v, m.winner, false, prev.held⟩ := rfl

theorem holdLevel_holds (h : prev.frozen = true) :
    holdLevel prev false true m v = ⟨m.level, prev.held, m.winner, true, prev.held⟩ := by
  simp [holdLevel, h]

/-- The beginning of a freeze, or a kind change, takes the computed output as the one that is held. -/
theorem holdLevel_takes (h : prev.frozen = false ∨ retake = true) :
    holdLevel prev retake true m v = ⟨m.level, v, m.winner, true, v⟩ := by
  rcases h with h | h <;> simp [holdLevel, h]

end

/-- Settles O58: the table of the held output by its three rows, and a freeze by the listed counts. -/
theorem freezesHoldTheOutput : Obligations.FreezesHoldTheOutput := by
  refine ⟨fun prev m v retake => ?_, fun s p hc => ?_⟩
  · exact ⟨holdLevel_free prev retake m v, holdLevel_holds prev m v, holdLevel_takes prev retake m v⟩
  · simp only [s.frozenNow_iff p hc.freezes, Group.spans_iff]

end Sys2Proof.Machine
end

section
/-! PROOF. The render complete (R96, R98, R132): the pass is published, and the hand-over to lamp lines, tiles and links
leaves the rest of the part. -/

namespace Sys2Proof.Machine

/-! ### What the hand-over changes (R137, R156, R160) -/

/-- From `s` to `t` nothing has changed but the lamp lines, the tiles, the links, the plates, the fetch list, the draw
counter, the event cells and the links whose rest is outstanding. -/
structure HandedOver (s t : State) : Prop where
  frame : t = { s with
        lines := t.lines
        tiles := t.tiles
        links := t.links
        plates := t.plates
        fetches := t.fetches
        draws := t.draws
        events := t.events
        work := { s.work with idleDue := t.work.idleDue } }

theorem HandedOver.refl (s : State) : HandedOver s s := ⟨rfl⟩

theorem HandedOver.trans {s t u : State} (h : HandedOver s t) (g : HandedOver t u) : HandedOver s u :=
  ⟨by rw [g.frame]; rw [h.frame]⟩

theorem HandedOver.ite {c : Prop} [Decidable c] {s t u : State} (h : HandedOver s t) (g : HandedOver s u) :
    HandedOver s (if c then t else u) := by
  split
  · exact h
  · exact g

theorem HandedOver.each {f : State → Nat → State} (h : ∀ s k, HandedOver s (f s k)) (s : State) (l : List Nat) :
    HandedOver s (s.each f l) := by
  induction l generalizing s with
  | nil => exact .refl s
  | cons k ks ih => exact (h s k).trans (ih _)

section
variable (s : State)

theorem HandedOver.raise (k : EventKind) : HandedOver s (s.raise k) := ⟨rfl⟩
theorem HandedOver.setLine (l : Nat) (x : Line) : HandedOver s (s.setLine l x) := ⟨rfl⟩
theorem HandedOver.setTile (t : Nat) (x : Tile) : HandedOver s (s.setTile t x) := ⟨rfl⟩
theorem HandedOver.setLink (l : Nat) (x : Link) : HandedOver s (s.setLink l x) := ⟨rfl⟩

theorem HandedOver.lineTakes (l : Nat) (values : Table Nat) : HandedOver s (s.lineTakes l values) := by
  unfold State.lineTakes
  exact .ite (.ite ((setLine s l _).trans (raise _ _)) (setLine s l _)) (.refl s)

theorem HandedOver.addFetch (t p : Nat) : HandedOver s (s.addFetch t p) :=
  ⟨by rw [(s.addFetch_spec t p).1]⟩

theorem HandedOver.fetchForCut (t : Nat) : HandedOver s (s.fetchForCut t) := by
  unfold State.fetchForCut
  dsimp only
  split
  · exact .ite (addFetch s _ _) (.refl s)
  · exact .refl s

theorem HandedOver.tileTakes (t : Nat) (v : TileParams) (frozen : Bool) : HandedOver s (s.tileTakes t v frozen) := by
  have changed (x : Tile) : HandedOver s ((s.setTile t x).dropFetches t) := ⟨rfl⟩
  unfold State.tileTakes
  exact .ite (setTile s t _) (.ite ((changed _).trans (fetchForCut _ _)) (changed _))

theorem HandedOver.countLatePlate (value : Nat) : HandedOver s (s.countLatePlate value) := by
  unfold State.countLatePlate
  split
  · exact ⟨rfl⟩
  · exact .refl s

theorem HandedOver.beginImage (past : Bool) (v : TileSet) : HandedOver s (s.beginImage past v) := by
  unfold State.beginImage
  exact .ite (((raise s _).trans (setTile _ _ _)).trans (.each countLatePlate _ _)) ⟨rfl⟩

theorem HandedOver.beginPacket (f : LinkFrame) (place : Nat) : HandedOver s (s.beginPacket f place) := by
  unfold State.beginPacket
  split
  · exact beginImage s _ _
  · exact .refl s

theorem HandedOver.linkTakes (l : Nat) (content : LinkContent) : HandedOver s (s.linkTakes l content) := by
  unfold State.linkTakes
  dsimp only
  split
  · exact ((setLink s l _).trans (setLink _ l _)).trans (beginPacket _ _ _)
  · exact (setLink s l _).trans (raise _ _)

theorem HandedOver.settleLink (l : Nat) : HandedOver s (s.settleLink l) := by
  unfold State.settleLink
  dsimp only
  split
  case h_1 => exact .ite ((setLink s l _).trans (linkTakes _ _ _)) (.refl s)
  case h_2 => exact linkTakes s l _
  case h_3 => exact .ite ⟨rfl⟩ ((setLink s l _).trans (linkTakes _ _ _))

theorem State.handOver_handedOver : HandedOver s s.handOver := by
  unfold State.handOver
  exact ((HandedOver.each (fun u l => .lineTakes u l _) s _).trans (.each (fun u t => .tileTakes u t _ _) _ _)).trans
    (.each .settleLink _ _)

end

/-! ### The publication (R96, R98) -/

theorem State.publish_result (s : State) (p : Nat) (hp : p < 2560) : s.publish.result p = s.renderPoint p := by
  rw [State.result, State.publish, Table.get_ofFn, if_pos hp]

/-- The render complete of a pass that no SOFT_CLEAR waits for. -/
theorem State.completeRender_eq (s : State) (hc : s.softClear ≠ .waiting) :
    s.completeRender = s.publish.handOver.setWork { s.publish.handOver.work with phase := .idle } := by
  have unclear : s.publish.clearIfWaiting = s.publish := if_neg hc
  rw [State.completeRender, unclear]

theorem exec_renderComplete (s : State) (hd : s.device = .running) (hp : s.work.phase = .rendering)
    (he : s.work.evaluation = none) : exec .renderComplete s = .next s.completeRender := by
  have settled : s.settleRender = s.completeRender := by
    rw [State.settleRender, hp, State.evaluateAll_none s _ he]
  show (.next (s.whenRunning s.settleRender) : Meaning) = _
  rw [State.whenRunning, if_pos hd, settled]

/-- Settles O51: the publication writes the results, and the hand-over behind it leaves them and the queue, the slots and
the timer. -/
theorem renderCompletePublishes : Obligations.RenderCompletePublishes := by
  intro s hd hp he hc
  have kept := s.publish.handOver_handedOver.frame
  refine ⟨_, exec_renderComplete s hd hp he, ?_⟩
  rw [s.completeRender_eq hc, kept]
  exact ⟨s.publish_result, rfl, rfl, rfl, rfl, rfl, rfl⟩

end Sys2Proof.Machine
end

section
/-! PROOF. The configuration of lamp lines, live inputs and tile links (R134, R140, R143, R164): what each command's own
checks give for fields in range. -/

namespace Sys2Proof.Machine

section
variable (h : Header) (s : State) (hs : h.src ≤ 1)
include hs

theorem setLineOwn_accepts (l e r : Byte) (n : Half) (on : Bool) (hl : l.toNat ≤ 7) (he : onOff e = some on)
    (h1 : 1 ≤ n.toNat) (hn : n.toNat ≤ 384) (hr : r.toNat ≤ 2) :
    setLineOwn h l e n r s = .accept
      (s.setLine l.toNat
        { s.line l.toNat with
          enabled := on, count := n.toNat, rate := r.toNat,
          waiting := if on then (s.line l.toNat).waiting else none })
      false
      (mark on ++ u16 n.toNat ++ u8 r.toNat ++ u8 (transmitterCode (s.line l.toNat).inFlight.isSome) ++
        u8 (s.line l.toNat).sequence) := by
  have inRange : ¬ (l.toNat > 7 ∨ n = 0 ∨ n.toNat > 384 ∨ r.toNat > 2) := by bv_omega
  simp only [setLineOwn, h.configures_of_le hs, he, if_neg inRange, Bool.not_true, Bool.false_eq_true, if_false]

theorem setInputOwn_accepts (n e : Byte) (on : Bool) (hn : n.toNat ≤ 3) (he : onOff e = some on) :
    setInputOwn h n e s = .accept (s.setInput n.toNat { s.input n.toNat with enabled := on }) false
      ({ s.input n.toNat with enabled := on } : Input).record := by
  simp only [setInputOwn, h.configures_of_le hs, he, if_neg (Nat.not_lt.2 hn), Bool.not_true, Bool.false_eq_true, if_false]

theorem setLinkOwn_accepts (l w : Byte) (d : Half) (hl : l.toNat ≤ 3) (h1 : 1 ≤ w.toNat) (hw : w.toNat ≤ 63) :
    setLinkOwn h l w d s = .accept
      (s.setLink l.toNat { s.link l.toNat with wakeDelay := w.toNat, idlePeriod := d.toNat }) false
      ({ s.link l.toNat with wakeDelay := w.toNat, idlePeriod := d.toNat } : Link).bytes := by
  have inRange : ¬ (l.toNat > 3 ∨ w.toNat < 1 ∨ w.toNat > 63) := by omega
  simp only [setLinkOwn, h.configures_of_le hs, if_neg inRange, Bool.not_true, Bool.false_eq_true, if_false]

end

/-- Settles O33: each command by what its own checks give; the frame's reload has changed no line, input or link. -/
theorem outputConfigurationCompletes : Obligations.OutputConfigurationCompletes := by
  intro s h hs
  refine ⟨fun l e r n on a hl he h1 hn hr => ?_, fun n e on a hn he => ?_, fun l w d a hl h1 hw => ?_⟩
  · have own := setLineOwn_accepts h (s.met h) hs l e r n on hl he h1 hn hr
    rw [State.met_line] at own
    exact exec_accepted s _ h _ false _ rfl a own
  · have own := setInputOwn_accepts h (s.met h) hs n e on hn he
    rw [State.met_input] at own
    exact exec_accepted s _ h _ false _ rfl a own
  · have own := setLinkOwn_accepts h (s.met h) hs l w d hl h1 hw
    rw [State.met_link] at own
    exact exec_accepted s _ h _ false _ rfl a own

end Sys2Proof.Machine
end

section
/-! PROOF. The transmitters (R135, R137 to R139, R152, R160, R161): what the end of a line frame and the end of a packet
leave, and a lamp line's wire bit by bit. -/

namespace Sys2Proof.Machine

/-! ### The end of a line frame (R137 to R139) -/

theorem exec_lineFrameEnd (s : State) (l : Fin 8) (hr : s.device = .running) :
    exec (.lineFrameEnd l) s = .next (s.setLine l.val (s.line l.val).endFrame) :=
  congrArg Host.Outcome.next (if_pos hr)

section
variable (x : Line)

/-- An enabled line that is SENDING begins its waiting set. -/
theorem Line.endFrame_begins (f : LineFrame) (v : LineSet) (hf : x.inFlight = some f) (hv : x.waiting = some v)
    (he : x.enabled = true) : x.endFrame = { x with inFlight := some (x.begin v), waiting := none } := by
  simp only [Line.endFrame, hf, hv, he, if_true]

/-- A line with nothing waiting is IDLE after its frame, and stays so where it had none. -/
theorem Line.endFrame_idles (hv : x.waiting = none) : x.endFrame = { x with inFlight := none } := by
  obtain ⟨_, _, _, _, inFlight, _, _, _⟩ := x
  obtain rfl : _ = none := hv
  cases inFlight <;> rfl

variable (values : Table Nat)

/-- An IDLE line begins a render's set at once (R137). -/
theorem Line.takeSet_idle (hf : x.inFlight = none) :
    x.takeSet values =
      { x with
        sequence := (x.sequence + 1) % 256
        inFlight := some (x.begin ⟨(x.sequence + 1) % 256, values⟩) } := by
  rw [Line.takeSet, hf]

/-- A SENDING line lets a render's set wait, with a slip, and a drop where a set was waiting (R138). -/
theorem Line.takeSet_sending (f : LineFrame) (hf : x.inFlight = some f) :
    x.takeSet values =
      { x with
        sequence := (x.sequence + 1) % 256
        waiting := some ⟨(x.sequence + 1) % 256, values⟩
        slips := saturate 65535 x.slips
        drops := if x.waiting.isSome then saturate 65535 x.drops else x.drops } := by
  simp only [Line.takeSet, hf]

/-- The frame that follows one with nothing waiting is the render's, on either side of the frame end. -/
theorem Line.endFrame_takeSet (f : LineFrame) (he : x.enabled = true) (hf : x.inFlight = some f)
    (hv : x.waiting = none) :
    (x.endFrame.takeSet values).inFlight = (x.takeSet values).endFrame.inFlight ∧
      (x.endFrame.takeSet values).sequence = (x.takeSet values).endFrame.sequence := by
  have idle := x.endFrame_idles hv
  have begun := Line.takeSet_idle x.endFrame values (by rw [idle])
  have taken := x.takeSet_sending values f hf
  have behind := Line.endFrame_begins (x.takeSet values) f ⟨(x.sequence + 1) % 256, values⟩ (by rw [taken]; exact hf)
    (by rw [taken]) (by rw [taken]; exact he)
  rw [begun, idle, behind, taken]
  exact ⟨rfl, rfl⟩

end

/-! ### The wire of a lamp line (R135) -/

/-- In a list of blocks of one length, place `i` of block `j`. -/
theorem getElem?_flatMap_blocks {α β : Type} (g : α → List β) (n : Nat) (hg : ∀ a, (g a).length = n) (l : List α)
    (j i : Nat) (hi : i < n) : (l.flatMap g)[n * j + i]? = l[j]?.bind fun a => (g a)[i]? := by
  induction l generalizing j with
  | nil => simp
  | cons a l ih =>
    rw [List.flatMap_cons]
    cases j with
    | zero => simp [List.getElem?_append_left, hg, hi]
    | succ j =>
      have behind : n * (j + 1) + i = (g a).length + (n * j + i) := by rw [hg, Nat.mul_succ]; omega
      rw [behind, List.getElem?_append_right (Nat.le_add_right _ _), Nat.add_sub_cancel_left, ih, List.getElem?_cons_succ]

theorem characterBits_length (first : Bool) (b : Byte) : (characterBits first b).length = 11 := by
  simp [characterBits]

theorem characterBits_start (first : Bool) (b : Byte) : (characterBits first b)[0]? = some false := rfl

theorem characterBits_data (first : Bool) (b : Byte) (k : Nat) (hk : k < 8) :
    (characterBits first b)[1 + k]? = some (b.getLsbD k) := by
  rw [Nat.add_comm]
  simp [characterBits, List.getElem?_append_left, hk]

theorem characterBits_mark (first : Bool) (b : Byte) : (characterBits first b)[9]? = some first := rfl

theorem characterBits_stop (first : Bool) (b : Byte) : (characterBits first b)[10]? = some true := rfl

section
variable (f : LineFrame) (n : Nat)

theorem LineFrame.bytes_eq :
    f.bytes n = u8 n ++ u8 f.sequence ++ u16 f.count ++
      (List.range f.count).map (fun j => BitVec.ofNat 8 (f.values.get SlotValue.por j)) := by
  rw [List.map_eq_flatMap]
  rfl

theorem LineFrame.bytes_length : (f.bytes n).length = 4 + f.count := by
  rw [f.bytes_eq n]
  simp [u8, u16, be16]
  omega

/-- Bit `i` of character `j` on the wire: the frame-mark is high on the first character alone. -/
theorem LineFrame.wire_bit (j i : Nat) (hi : i < 11) :
    (f.wire n)[11 * j + i]? = (f.bytes n)[j]?.bind fun b => (characterBits (decide (j = 0)) b)[i]? := by
  unfold LineFrame.wire
  cases f.bytes n with
  | nil => simp
  | cons b rest =>
    cases j with
    | zero => simp [List.getElem?_append_left, characterBits_length, hi]
    | succ j =>
      have behind : 11 * (j + 1) + i = (characterBits true b).length + (11 * j + i) := by
        rw [characterBits_length]; omega
      rw [behind, List.getElem?_append_right (Nat.le_add_right _ _), Nat.add_sub_cancel_left,
        getElem?_flatMap_blocks _ 11 (characterBits_length false) rest j i hi, List.getElem?_cons_succ]
      rfl

end

section
variable (x : Line) (n : Nat)

/-- With no frame in flight a line is at its idle level (R135, R139). -/
theorem Line.level_idle (k : Nat) (hx : x.inFlight = none) : x.level n k = true := by
  rw [Line.level, hx]
  rfl

variable (f : LineFrame) (hx : x.inFlight = some f)
include hx

theorem Line.level_sending (k : Nat) : x.level n k = ((f.wire n)[k]?).getD true := by
  simp only [Line.level, hx, List.getD_eq_getElem?_getD, lineIdleLevel]

/-- Behind its last character a line is at its idle level. -/
theorem Line.level_behind (k : Nat) (hk : 11 * (4 + f.count) ≤ k) : x.level n k = true := by
  have beyond : (f.bytes n)[k / 11]? = none := List.getElem?_eq_none (by rw [f.bytes_length n]; omega)
  rw [x.level_sending n f hx, ← Nat.div_add_mod k 11, f.wire_bit n _ _ (Nat.mod_lt k (by decide)), beyond]
  rfl

/-- Bit `i` of character `j` of the frame in flight, where the character has the level `v` there. -/
theorem Line.level_character (j i : Nat) (v : Bool) (hj : j < 4 + f.count) (hi : i < 11)
    (hv : (characterBits (decide (j = 0)) ((f.bytes n).getD j 0))[i]? = some v) : x.level n (11 * j + i) = v := by
  have listed : (f.bytes n)[j]? = some ((f.bytes n).getD j 0) := by
    have within : j < (f.bytes n).length := by rwa [f.bytes_length n]
    rw [List.getD_eq_getElem?_getD, List.getElem?_eq_getElem within, Option.getD_some]
  rw [x.level_sending n f hx, f.wire_bit n j i hi, listed, Option.bind_some, hv]
  rfl

/-- Each character of the frame in flight: start bit, data bits from bit 0 on, frame-mark, stop bit. -/
theorem Line.level_framing (j : Nat) (hj : j < 4 + f.count) :
    x.level n (11 * j) = false ∧ (∀ b < 8, x.level n (11 * j + 1 + b) = ((f.bytes n).getD j 0).getLsbD b) ∧
      x.level n (11 * j + 9) = decide (j = 0) ∧ x.level n (11 * j + 10) = true := by
  have character := x.level_character n f hx j
  refine ⟨character 0 _ hj (by decide) (characterBits_start _ _), fun b hb => ?_,
    character 9 _ hj (by decide) (characterBits_mark _ _), character 10 _ hj (by decide) (characterBits_stop _ _)⟩
  rw [Nat.add_assoc]
  exact character (1 + b) _ hj (by omega) (characterBits_data _ _ b hb)

end

/-! ### The end of a packet (R152, R160, R161) -/

theorem exec_tilePacketEnd (s : State) (l : Fin 4) (hr : s.device = .running) :
    exec (.tilePacketEnd l) s = .next (s.endPacket l.val) :=
  congrArg Host.Outcome.next (if_pos hr)

section
variable (s : State)

theorem State.beginPacket_without_tile (f : LinkFrame) (place : Nat) (hv : f.setAt place = none) :
    s.beginPacket f place = s := by
  rw [State.beginPacket, hv]

theorem State.beginPacket_of_tile (f : LinkFrame) (place : Nat) (v : TileSet) (hv : f.setAt place = some v) :
    s.beginPacket f place = s.beginImage f.past v := by
  rw [State.beginPacket, hv]

/-- An IMAGE packet of which no fetch is late forms its pixels (R152, R159). -/
theorem State.beginImage_formed (past : Bool) (v : TileSet) (hl : s.lateSources v.tile = []) :
    s.beginImage past v =
      { s.setTile v.tile { s.tile v.tile with lastSent := s.outputImage past v } with draws := s.draws + 1 } := by
  rw [State.beginImage, hl]
  rfl

variable (l : Nat) (f : LinkSending) (hf : (s.link l).inFlight = some f)
include hf

/-- With packets left the next one begins. -/
theorem State.endPacket_next (hp : f.place + 1 < f.frame.packets) :
    s.endPacket l =
      (s.setLink l { s.link l with inFlight := some ⟨f.frame, f.place + 1⟩ }).beginPacket f.frame (f.place + 1) := by
  simp only [State.endPacket, hf, if_pos hp]

variable (hp : f.frame.packets ≤ f.place + 1)
include hp

/-- The last packet ends its frame, and nothing waits. -/
theorem State.endPacket_idle (hw : (s.link l).waiting = none) :
    s.endPacket l = s.setLink l { s.link l with inFlight := none } := by
  simp only [State.endPacket, hf, hw, if_neg (Nat.not_lt.2 hp)]

/-- The last packet ends its frame, and the waiting set begins. -/
theorem State.endPacket_waiting (hc : Canonical s) (w : LinkFrame) (hw : (s.link l).waiting = some w) :
    s.endPacket l =
      (s.setLink l { s.link l with inFlight := some ⟨w, 0⟩, waiting := none }).beginPacket w 0 := by
  simp only [State.endPacket, hf, hw, if_neg (Nat.not_lt.2 hp), State.beginLinkFrame, State.link_setLink,
    State.setLink_setLink s l hc]

end

/-- Settles O52: the ends by what waits and which packets are left, the wire character by character. -/
theorem transmitterEndsComplete : Obligations.TransmitterEndsComplete := by
  refine ⟨fun s l hr => ⟨fun f v hf hv he => ?_, fun hv => ?_⟩, fun s l f hr hf => ?_, State.beginImage_formed,
    fun x n k => ⟨x.level_idle n k, fun f hx => ?_⟩, fun x f values => x.endFrame_takeSet values f⟩
  · rw [exec_lineFrameEnd s l hr, Line.endFrame_begins _ f v hf hv he]
    rfl
  · rw [exec_lineFrameEnd s l hr, Line.endFrame_idles _ hv]
  · rw [exec_tilePacketEnd s l hr]
    refine ⟨fun hp hw => ?_, fun hp hv => ?_, fun v hp hv => ?_, fun w hc hp hw => ?_⟩
    · rw [s.endPacket_idle l f hf hp hw]
    · rw [s.endPacket_next l f hf hp, State.beginPacket_without_tile _ _ _ hv]
    · rw [s.endPacket_next l f hf hp, State.beginPacket_of_tile _ _ _ v hv]
    · rw [s.endPacket_waiting l f hf hp hc w hw]
  · exact ⟨f.bytes_eq n, x.level_behind n f hx k, x.level_framing n f hx⟩

end Sys2Proof.Machine
end

section
/-! PROOF. A tile's source change and the count of its dissolve (R157, R158): one equation for each row of the table. -/

namespace Sys2Proof.Machine

/-! ### The source change (R157) -/

section
variable (x : Tile) (new : Nat)

theorem Tile.change_cut (frozen : Bool) (h : x.fields.dissolve = 0 ∨ frozen = true) :
    x.change new frozen =
      { x with current := new, fromSource := none, elapsed := 0, currentStore := none, fromStore := none } := if_pos h

variable (hd : x.fields.dissolve ≠ 0)
include hd

theorem Tile.change_begins (h : x.fromSource = none ∨ x.fields.dissolve ≤ 2 * x.elapsed) :
    x.change new false =
      { x with
        current := new, fromSource := some x.current, elapsed := 0, currentStore := none
        fromStore := x.currentStore } := by
  simp [Tile.change, hd, h]

theorem Tile.change_goes_on (hf : x.fromSource ≠ none) (he : 2 * x.elapsed < x.fields.dissolve) :
    x.change new false = { x with current := new, elapsed := 0, currentStore := none } := by
  simp [Tile.change, hd, hf, Nat.not_le.2 he]

end

/-- Each row of the table makes the new source the current one, its store empty and e 0. -/
theorem Tile.change_current (x : Tile) (new : Nat) (frozen : Bool) :
    (x.change new frozen).current = new ∧ (x.change new frozen).currentStore = none ∧
      (x.change new frozen).elapsed = 0 := by
  unfold Tile.change
  split
  case isTrue => exact ⟨rfl, rfl, rfl⟩
  case isFalse => split <;> exact ⟨rfl, rfl, rfl⟩

/-! ### The count (R158) -/

section
variable (s : State) (t : Nat) (hf : (s.tile t).fromSource ≠ none)
include hf

theorem State.countDissolve_counts (he : (s.tile t).elapsed + 1 < (s.tile t).fields.dissolve) :
    s.countDissolve t = s.setTile t { s.tile t with elapsed := (s.tile t).elapsed + 1 } := by
  simp [State.countDissolve, hf, he]

/-- The last count is left to DISSOLVE_END (log 4). -/
theorem State.countDissolve_ends (he : (s.tile t).fields.dissolve ≤ (s.tile t).elapsed + 1) :
    s.countDissolve t = s.setWork { s.work with dissolvesDue := s.work.dissolvesDue ++ [t] } := by
  simp [State.countDissolve, hf, Nat.not_lt.2 he, State.setWork]

end

/-- Settles O59: the table by its rows, the count by its two cases. -/
theorem sourceChangesOnATileFollowTheTable : Obligations.SourceChangesOnATileFollowTheTable := by
  refine ⟨fun x new frozen => ?_, fun s t hf => ⟨s.countDissolve_counts t hf, s.countDissolve_ends t hf⟩⟩
  obtain ⟨current, store, elapsed⟩ := x.change_current new frozen
  refine ⟨current, store, elapsed, fun h => ?_, ?_, ?_⟩
  · rw [x.change_cut new frozen h]
    exact ⟨rfl, rfl⟩
  · rintro hd rfl h
    rw [x.change_begins new hd h]
    exact ⟨rfl, rfl⟩
  · rintro hd rfl hf he
    rw [x.change_goes_on new hd hf he]
    exact ⟨rfl, rfl⟩

end Sys2Proof.Machine
end

section
/-! PROOF. The frame-memory port and the pins (R130, R142, R150, R151, R153): what the end of a read and a read error
leave of the fetch that the port serves. -/

namespace Sys2Proof.Machine

theorem exec_readCompletion (s : State) (ws : List Word) (hr : s.device = .running) :
    exec (.readCompletion ws) s = .next (s.completeRead ws) :=
  congrArg Host.Outcome.next (if_pos hr)

theorem exec_readError (s : State) (hr : s.device = .running) : exec .readError s = .next s.failRead :=
  congrArg Host.Outcome.next (if_pos hr)

/-! ### The fetch that the port serves (R150) -/

/-- A fetch whose next line has come. -/
def Fetch.lineRead (f : Fetch) (ws : List Word) : Fetch :=
  { f with reads := f.reads.tail, line := f.line + 1, pixels := writeLine f.pixels f.line f.columns ws }

section
variable (s : State) (done rest : List Fetch) (f : Fetch) (hl : s.fetches = done ++ f :: rest)
  (hd : ∀ g ∈ done, g.ended = true) (hf : f.ended = false)
include hl hd hf

theorem State.portRead_serves : s.portRead = f.reads.head?.map fun a => (a, f.columns) := by
  obtain ⟨put, served, -⟩ := currentFetch_behind done rest f hd hf
  rw [State.portRead, hl, served]
  rfl

/-- With lines left the fetch goes on to the next one. -/
theorem State.completeRead_next (ws : List Word) (hn : 2 ≤ f.reads.length) :
    s.completeRead ws = { s with fetches := done ++ f.lineRead ws :: rest } := by
  obtain ⟨put, served, back⟩ := currentFetch_behind done rest f hd hf
  have left : f.reads.tail ≠ [] := fun h => by
    have := congrArg List.length h
    simp at this
    omega
  simp only [State.completeRead, hl, served, back, if_pos left]
  rfl

/-- The last line ends the fetch and fills the tile's store for its source. -/
theorem State.completeRead_last (ws : List Word) (hn : f.reads.length ≤ 1) :
    s.completeRead ws =
      ({ s with fetches := done ++ { f.lineRead ws with reads := [], ended := true } :: rest }).fillStores
        (f.lineRead ws) := by
  obtain ⟨put, served, back⟩ := currentFetch_behind done rest f hd hf
  have none_left : f.reads.tail = [] := List.eq_nil_of_length_eq_zero (by rw [List.length_tail]; omega)
  simp only [State.completeRead, hl, served, back, Fetch.lineRead, none_left, ne_eq, not_true, if_false]

/-- A read error puts the plate in FAULT whatever its state (log 28). -/
theorem State.failRead_faults (p : Nat) (hp : plateOf f.source = some p) :
    s.failRead =
      ({ s with fetches := s.fetches.filter fun g => g.ended || g.source != f.source }.setPlate p
        { s.plate p with state := .fault }).raise .plateFault := by
  obtain ⟨put, served, -⟩ := currentFetch_behind done rest f hd hf
  rw [← hl] at served
  simp only [State.failRead, served, hp]
  rfl

end

/-- Settles O53: the row takes the port's end of a read or its error, and a pin's level is one item of state. -/
theorem memoryReadsAndPinsComplete : Obligations.MemoryReadsAndPinsComplete := by
  refine ⟨fun s done rest f hr hl hd hf => ⟨?_, fun ws hn => ?_, fun ws hn => ?_, fun p hp => ?_⟩,
    fun s => ⟨fun _ => rfl, fun _ _ => rfl⟩⟩
  · exact s.portRead_serves done rest f hl hd hf
  · rw [exec_readCompletion s ws hr, s.completeRead_next done rest f hl hd hf ws hn]
    rfl
  · refine ⟨_, exec_readCompletion s ws hr, ?_⟩
    rw [s.completeRead_last done rest f hl hd hf ws hn]
    exact ⟨rfl, State.tile_setTile _ _ _, fun k hk => State.tile_setTile_other _ _ _ _ hk, rfl⟩
  · rw [exec_readError s hr, s.failRead_faults done rest f hl hd hf p hp]

end Sys2Proof.Machine
end

section
/-! PROOF. LOAD_PLATE (R145 to R147): the descriptors that a part takes and writes, and the two kinds of part. -/

namespace Sys2Proof

theorem LoadPlateBody.inRange (b : LoadPlateBody) (hp : b.plate.toNat ≤ 7) (hk : b.part.toNat ≤ 1)
    (h1 : 1 ≤ b.descriptors.length) (h128 : b.descriptors.length ≤ 128) :
    ¬ (b.plate.toNat > 7 ∨ b.part.toNat > 1 ∨ b.descriptors.length = 0 ∨ b.descriptors.length > 128) := by
  omega

end Sys2Proof

namespace Sys2Proof.Machine

/-! ### Writing descriptors (R145, R147) -/

/-- A descriptor as a part's append writes it; the end-of-clip mark is left to the completion (R147). -/
def writtenDescriptor (e : DescriptorField) (endOfClip : Bool) : Descriptor :=
  ⟨e.address.toNat, e.lines.toNat, endOfImageMark e, endOfClip⟩

theorem State.writeDescriptors_cons (s : State) (n : Nat) (ns : List Nat) (e : DescriptorField)
    (es : List DescriptorField) :
    s.writeDescriptors (n :: ns) (e :: es) =
      (s.setDescriptor n (writtenDescriptor e false)).writeDescriptors ns es := rfl

theorem State.writeDescriptors_frame (s : State) (ns : List Nat) (es : List DescriptorField) :
    s.writeDescriptors ns es = { s with descriptors := (s.writeDescriptors ns es).descriptors } := by
  induction ns generalizing s es with
  | nil => rfl
  | cons n ns ih =>
    cases es with
    | nil => rfl
    | cons e es =>
      rw [State.writeDescriptors_cons, ih]
      rfl

theorem State.descriptor_writeDescriptors_other (s : State) (ns : List Nat) (es : List DescriptorField) (d : Nat)
    (hd : d ∉ ns) : (s.writeDescriptors ns es).descriptor d = s.descriptor d := by
  induction ns generalizing s es with
  | nil => rfl
  | cons n ns ih =>
    obtain ⟨hn, hns⟩ := List.ne_and_not_mem_of_not_mem_cons hd
    cases es with
    | nil => rfl
    | cons e es => rw [State.writeDescriptors_cons, ih _ _ hns, State.descriptor_setDescriptor_other _ _ _ _ hn]

/-- Descriptors without a repeated number hold the part's entries in their order. -/
theorem State.descriptor_writeDescriptors (s : State) (ns : List Nat) (es : List DescriptorField) (hn : ns.Nodup)
    (j d : Nat) (e : DescriptorField) (hd : ns[j]? = some d) (he : es[j]? = some e) :
    (s.writeDescriptors ns es).descriptor d = writtenDescriptor e false := by
  induction ns generalizing s es j with
  | nil => simp at hd
  | cons n ns ih =>
    obtain ⟨fresh, rest⟩ := List.nodup_cons.1 hn
    cases es with
    | nil => simp at he
    | cons e' es =>
      rw [State.writeDescriptors_cons]
      cases j with
      | zero =>
        obtain rfl : n = d := by simpa using hd
        obtain rfl : e' = e := by simpa using he
        rw [State.descriptor_writeDescriptors_other _ _ _ _ fresh, State.descriptor_setDescriptor]
      | succ j => exact ih _ _ rest j (by simpa using hd) (by simpa using he)

/-! ### The append of a part's descriptors (R147) -/

section
variable (s : State) (p : Nat) (es : List DescriptorField)

/-- The append is its descriptors' writing and the plate's longer clip. -/
theorem State.appendPart_eq :
    s.appendPart p es =
      (({ s with descriptorFree := s.descriptorFree.drop es.length }).writeDescriptors
        (s.descriptorFree.take es.length) es).setPlate p
          { s.plate p with clip := (s.plate p).clip ++ s.descriptorFree.take es.length } := by
  have same : (({ s with descriptorFree := s.descriptorFree.drop es.length }).writeDescriptors
      (s.descriptorFree.take es.length) es).plate p = s.plate p := by
    rw [State.writeDescriptors_frame]
    rfl
  simp only [State.appendPart, same]

theorem State.appendPart_frame :
    s.appendPart p es =
      { s with
        plates := (s.appendPart p es).plates, descriptors := (s.appendPart p es).descriptors
        descriptorFree := s.descriptorFree.drop es.length } := by
  rw [State.appendPart_eq, State.writeDescriptors_frame]
  rfl

theorem State.appendPart_plate :
    (s.appendPart p es).plate p =
      { s.plate p with clip := (s.plate p).clip ++ s.descriptorFree.take es.length } := by
  rw [State.appendPart_eq, State.plate_setPlate]

theorem State.appendPart_plate_other (q : Nat) (hq : q ≠ p) : (s.appendPart p es).plate q = s.plate q := by
  rw [State.appendPart_eq, State.plate_setPlate_other _ _ _ _ hq, State.writeDescriptors_frame]
  rfl

theorem State.appendPart_descriptor (hn : (s.descriptorFree.take es.length).Nodup) (j d : Nat) (e : DescriptorField)
    (hd : (s.descriptorFree.take es.length)[j]? = some d) (he : es[j]? = some e) :
    (s.appendPart p es).descriptor d = writtenDescriptor e false := by
  rw [State.appendPart_eq]
  exact State.descriptor_writeDescriptors _ _ _ hn j d e hd he

theorem State.appendPart_descriptor_other (d : Nat) (hd : d ∉ s.descriptorFree.take es.length) :
    (s.appendPart p es).descriptor d = s.descriptor d := by
  rw [State.appendPart_eq]
  exact State.descriptor_writeDescriptors_other _ _ _ _ hd

end

/-! ### A part, with or without the last mark (R147) -/

/-- What an accepted part leaves. -/
def State.loadPart (s : State) (p : Nat) (last : Bool) (es : List DescriptorField) : State :=
  if last then (s.appendPart p es).closeLoad p else s.appendPart p es

theorem acceptPart_eq (s : State) (p : Nat) (last : Bool) (es : List DescriptorField) :
    acceptPart s p last es = .accept (s.loadPart p last es) false ((s.loadPart p last es).loadPlateFields p) := rfl

theorem State.closeLoad_eq (s : State) (p d : Nat) (hd : (s.plate p).clip.getLast? = some d) :
    s.closeLoad p =
      (s.setDescriptor d { s.descriptor d with endOfClip := true }).setPlate p
        { s.plate p with state := .stopped, loadOpen := false, image := 0, held := 0, late := 0 } := by
  simp only [State.closeLoad, hd]

section
variable (s : State) (p : Nat) (es : List DescriptorField) (h1 : 1 ≤ es.length)
  (hn : es.length ≤ s.descriptorFree.length)
include h1 hn

/-- The completion marks the last descriptor that the part has taken, and stops the plate. -/
theorem State.loadPart_last :
    ∃ d, (s.descriptorFree.take es.length)[es.length - 1]? = some d ∧
      s.loadPart p true es =
        ((s.appendPart p es).setDescriptor d { (s.appendPart p es).descriptor d with endOfClip := true }).setPlate p
          { (s.appendPart p es).plate p with
            state := .stopped, loadOpen := false, image := 0, held := 0, late := 0 } := by
  have len : (s.descriptorFree.take es.length).length = es.length := List.length_take_of_le hn
  have taken : s.descriptorFree.take es.length ≠ [] := List.ne_nil_of_length_pos (by omega)
  obtain ⟨d, hd⟩ := Option.isSome_iff_exists.1 (List.getLast?_isSome.2 taken)
  refine ⟨d, by rwa [List.getLast?_eq_getElem?, len] at hd, State.closeLoad_eq _ p d ?_⟩
  show ((s.appendPart p es).plate p).clip.getLast? = some d
  rw [State.appendPart_plate, List.getLast?_append, hd, Option.some_or]

theorem State.loadPart_frame (last : Bool) :
    s.loadPart p last es =
      { s with
        plates := (s.loadPart p last es).plates, descriptors := (s.loadPart p last es).descriptors
        descriptorFree := s.descriptorFree.drop es.length } := by
  cases last with
  | false => exact s.appendPart_frame p es
  | true =>
    obtain ⟨d, -, closed⟩ := s.loadPart_last p es h1 hn
    rw [closed, s.appendPart_frame p es]
    rfl

theorem State.loadPart_plate (last : Bool) (ho : (s.plate p).loadOpen = true) :
    (s.loadPart p last es).plate p =
      { s.plate p with
        clip := (s.plate p).clip ++ s.descriptorFree.take es.length
        state := if last then .stopped else (s.plate p).state, loadOpen := !last
        image := if last then 0 else (s.plate p).image, held := if last then 0 else (s.plate p).held
        late := if last then 0 else (s.plate p).late } := by
  cases last with
  | false =>
    have isOpen : s.plate p = { s.plate p with loadOpen := true } := by rw [← ho]
    refine (s.appendPart_plate p es).trans ?_
    rw [isOpen]
    rfl
  | true =>
    obtain ⟨d, -, closed⟩ := s.loadPart_last p es h1 hn
    rw [closed, State.plate_setPlate, State.appendPart_plate]
    rfl

theorem State.loadPart_plate_other (last : Bool) (q : Nat) (hq : q ≠ p) :
    (s.loadPart p last es).plate q = s.plate q := by
  cases last with
  | false => exact s.appendPart_plate_other p es q hq
  | true =>
    obtain ⟨d, -, closed⟩ := s.loadPart_last p es h1 hn
    rw [closed, State.plate_setPlate_other _ _ _ _ hq]
    exact s.appendPart_plate_other p es q hq

/-- The end-of-clip mark stands on the last descriptor of a part with the last mark alone. -/
theorem State.loadPart_descriptor (last : Bool) (hnd : (s.descriptorFree.take es.length).Nodup) (j d : Nat)
    (e : DescriptorField) (hd : (s.descriptorFree.take es.length)[j]? = some d) (he : es[j]? = some e) :
    (s.loadPart p last es).descriptor d = writtenDescriptor e (last && j + 1 == es.length) := by
  have appended := s.appendPart_descriptor p es hnd j d e hd he
  cases last with
  | false => exact appended
  | true =>
    obtain ⟨k, hk, closed⟩ := s.loadPart_last p es h1 hn
    rw [closed]
    show ((s.appendPart p es).setDescriptor k _).descriptor d = _
    by_cases hj : j + 1 = es.length
    · obtain rfl : k = d := Option.some.inj (hk.symm.trans ((congrArg _ (Nat.eq_sub_of_add_eq hj)).symm.trans hd))
      rw [State.descriptor_setDescriptor, appended, hj, Bool.true_and, beq_self_eq_true]
      rfl
    · have other : d ≠ k := by
        rintro rfl
        obtain ⟨hlt, -⟩ := List.getElem?_eq_some_iff.1 hd
        have := (List.getElem?_inj hlt hnd).1 (hd.trans hk.symm)
        omega
      rw [State.descriptor_setDescriptor_other _ _ _ _ other, appended, Bool.true_and, beq_eq_false_iff_ne.2 hj]

theorem State.loadPart_descriptor_other (last : Bool) (d : Nat) (hd : d ∉ s.descriptorFree.take es.length) :
    (s.loadPart p last es).descriptor d = s.descriptor d := by
  have appended := s.appendPart_descriptor_other p es d hd
  cases last with
  | false => exact appended
  | true =>
    obtain ⟨k, hk, closed⟩ := s.loadPart_last p es h1 hn
    rw [closed]
    have other : d ≠ k := by
      rintro rfl
      exact hd (List.mem_of_getElem? hk)
    exact (State.descriptor_setDescriptor_other _ _ _ _ other).trans appended

end

/-! ### The checks (R146) -/

@[simp] theorem State.met_plateShown (s : State) (h : Header) (p : Nat) : (s.met h).plateShown p = s.plateShown p := by
  simp [State.plateShown]

section
variable (h : Header) (b : LoadPlateBody) (last : Bool) (s : State) (hs : h.src ≤ 1) (hl : onOff b.last = some last)
  (hp : b.plate.toNat ≤ 7) (hk : b.part.toNat ≤ 1) (h1 : 1 ≤ b.descriptors.length) (h128 : b.descriptors.length ≤ 128)
include hs hl hp hk h1 h128

theorem loadPlateOwn_first (f : PlateFirst) (mode : EndMode) (hf : b.first = some f) (hm : plateFirstOf f = some mode)
    (fit : descriptorsFit f.width.toNat f.height.toNat b.descriptors = true)
    (rest : (s.plate b.plate.toNat).state ≠ .playing) (unshown : s.plateShown b.plate.toNat = false)
    (room : b.descriptors.length ≤ s.descriptorFree.length + (s.plate b.plate.toNat).clip.length) :
    loadPlateOwn h b s = acceptPart (s.openLoad b.plate.toNat f mode) b.plate.toNat last b.descriptors := by
  simp only [loadPlateOwn, hl, if_neg (b.inRange hp hk h1 h128), hf, hm]
  simp [h.configures_of_le hs, fit, rest, unshown, Nat.not_lt.2 room]

theorem loadPlateOwn_next (hf : b.first = none) (isOpen : (s.plate b.plate.toNat).loadOpen = true)
    (fit : descriptorsFit (s.plate b.plate.toNat).width (s.plate b.plate.toNat).height b.descriptors = true)
    (images : s.imageCount (s.plate b.plate.toNat).clip + (b.descriptors.filter endOfImageMark).length ≤ 256)
    (room : b.descriptors.length ≤ s.descriptorFree.length) :
    loadPlateOwn h b s = acceptPart s b.plate.toNat last b.descriptors := by
  simp only [loadPlateOwn, hl, if_neg (b.inRange hp hk h1 h128), hf]
  simp [h.configures_of_le hs, isOpen, fit, Nat.not_lt.2 images, Nat.not_lt.2 room]

end

/-! ### The two kinds of part (R147) -/

/-- A FIRST part is appended to the state in which the plate's own descriptors have returned and its load is open. -/
theorem State.openLoad_eq (s : State) (p : Nat) (f : PlateFirst) (mode : EndMode) :
    s.openLoad p f mode =
      { s with descriptorFree := s.descriptorFree ++ (s.plate p).clip }.setPlate p
        { s.plate p with
          state := .undefined, loadOpen := true, width := f.width.toNat, height := f.height.toNat
          hold := f.hold.toNat, endMode := mode, clip := [], image := 0, held := 0, cleared := false } := rfl

/-- What a part appended in `u` leaves, where `u` is `s` but for the plate and the free list (R147): the descriptors
taken are written, where none is taken twice, and no other part of the state has changed. -/
theorem State.loadPart_leaves (s u : State) (p : Nat) (last : Bool) (es : List DescriptorField)
    (h1 : 1 ≤ es.length) (hn : es.length ≤ u.descriptorFree.length)
    (hu : u = { s with plates := u.plates, descriptorFree := u.descriptorFree })
    (hp : ∀ q, q ≠ p → u.plate q = s.plate q) :
    let taken := u.descriptorFree.take es.length
    let t := u.loadPart p last es
    t.descriptorFree = u.descriptorFree.drop es.length ∧
      ((taken.Nodup → ∀ (j d : Nat) (e : DescriptorField), taken[j]? = some d → es[j]? = some e →
          t.descriptor d = writtenDescriptor e (last && j + 1 == es.length)) ∧
        ∀ d, d ∉ taken → t.descriptor d = s.descriptor d) ∧
      (∀ q, q ≠ p → t.plate q = s.plate q) ∧
      t = { s with plates := t.plates, descriptors := t.descriptors, descriptorFree := t.descriptorFree } := by
  intro taken t
  have part : t = _ := u.loadPart_frame p es h1 hn last
  have kept (d : Nat) : u.descriptor d = s.descriptor d := by rw [hu]; rfl
  refine ⟨by rw [part], ⟨u.loadPart_descriptor p es h1 hn last, fun d hd => ?_⟩, fun q hq => ?_, ?_⟩
  · exact (u.loadPart_descriptor_other p es h1 hn last d hd).trans (kept d)
  · exact (u.loadPart_plate_other p es h1 hn last q hq).trans (hp q hq)
  · clear_value t
    rw [part, hu]

/-- Settles O34: the checks pass, and either kind of part is the append on its plate, whose load is open. -/
theorem loadPlateCompletes : Obligations.LoadPlateCompletes := by
  intro s h b last adm hs hp hk hl h1 h128 x n written
  refine ⟨fun f mode hf hm fit rest unshown room => ?_, fun hf isOpen fit images room => ?_⟩
  · have own := loadPlateOwn_first h b last (s.met h) hs hl hp hk h1 h128 f mode hf hm fit (by rwa [State.met_plate])
      (by rwa [State.met_plateShown]) (by rwa [State.met_descriptorFree, State.met_plate])
    rw [acceptPart_eq] at own
    refine ⟨_, exec_accepted s _ h _ false _ rfl adm own, ?_⟩
    generalize hu : (s.met h).openLoad b.plate.toNat f mode = u
    rw [State.openLoad_eq, State.met_descriptorFree, State.met_plate] at hu
    have free : u.descriptorFree = s.descriptorFree ++ x.clip := by rw [← hu]; rfl
    have roomU : n ≤ u.descriptorFree.length := by rwa [free, List.length_append]
    have leaves := (s.met h).loadPart_leaves u b.plate.toNat last b.descriptors h1 roomU (by rw [← hu]; rfl)
      fun q hq => by rw [← hu, State.plate_setPlate_other _ _ _ _ hq]; rfl
    simp only [State.met_descriptor, State.met_plate, free] at leaves
    refine ⟨?_, leaves⟩
    rw [u.loadPart_plate _ _ h1 roomU last (by rw [← hu, State.plate_setPlate]), ← hu, State.plate_setPlate]
    cases last <;> rfl
  · have own := loadPlateOwn_next h b last (s.met h) hs hl hp hk h1 h128 hf (by rwa [State.met_plate])
      (by rwa [State.met_plate]) (by rwa [State.met_imageCount, State.met_plate]) (by rwa [State.met_descriptorFree])
    rw [acceptPart_eq] at own
    refine ⟨_, exec_accepted s _ h _ false _ rfl adm own, ?_⟩
    have free := s.met_descriptorFree h
    have roomU : n ≤ (s.met h).descriptorFree.length := by rwa [free]
    have leaves := (s.met h).loadPart_leaves _ b.plate.toNat last b.descriptors h1 roomU rfl fun _ _ => rfl
    simp only [State.met_descriptor, State.met_plate, free] at leaves
    refine ⟨?_, leaves⟩
    rw [State.loadPart_plate _ _ _ h1 roomU last (by rwa [State.met_plate]), State.met_plate, free]

end Sys2Proof.Machine
end

section
/-! PROOF. The frame's fetch list (R142, R145, R150): what a fetch's place in the list and its reads depend on, which
the list's forming leaves, so that the list is the one the state at the render's beginning asks for. -/

namespace Sys2Proof.Machine

/-! ### What the fetch list is formed from (R145, R150) -/

/-- From `s` to `t` nothing has changed of what a fetch list is formed from: of the tiles their fields and sources
stand, of the plates all but the mark `cleared`. -/
structure FetchGround (s t : State) : Prop where
  frame : t = { s with inputs := t.inputs, plates := t.plates, tiles := t.tiles, fetches := t.fetches }
  fields : ∀ k, (t.tile k).fields = (s.tile k).fields
  current : ∀ k, (t.tile k).current = (s.tile k).current
  fromSource : ∀ k, (t.tile k).fromSource = (s.tile k).fromSource
  plates : ∀ p, t.plate p = { s.plate p with cleared := (t.plate p).cleared }

theorem FetchGround.refl (s : State) : FetchGround s s := ⟨rfl, fun _ => rfl, fun _ => rfl, fun _ => rfl, fun _ => rfl⟩

theorem FetchGround.trans {s t u : State} (h : FetchGround s t) (g : FetchGround t u) : FetchGround s u where
  frame := by rw [g.frame]; rw [h.frame]
  fields k := (g.fields k).trans (h.fields k)
  current k := (g.current k).trans (h.current k)
  fromSource k := (g.fromSource k).trans (h.fromSource k)
  plates p := by rw [g.plates p, h.plates p]

theorem FetchGround.setInput (s : State) (i : Nat) (x : Input) : FetchGround s (s.setInput i x) :=
  ⟨rfl, fun _ => rfl, fun _ => rfl, fun _ => rfl, fun _ => rfl⟩

theorem FetchGround.withFetches (s : State) (l : List Fetch) : FetchGround s { s with fetches := l } :=
  ⟨rfl, fun _ => rfl, fun _ => rfl, fun _ => rfl, fun _ => rfl⟩

/-- The end of a fetch changes the stores of its tile alone. -/
theorem FetchGround.fillStores (s : State) (f : Fetch) : FetchGround s (s.fillStores f) := by
  have tile (k : Nat) : ((s.fillStores f).tile k).fields = (s.tile k).fields ∧
      ((s.fillStores f).tile k).current = (s.tile k).current ∧
      ((s.fillStores f).tile k).fromSource = (s.tile k).fromSource := by
    unfold State.fillStores
    by_cases hk : k = f.tile
    · subst hk
      rw [State.tile_setTile]
      exact ⟨rfl, rfl, rfl⟩
    · rw [State.tile_setTile_other _ _ _ _ hk]
      exact ⟨rfl, rfl, rfl⟩
  exact ⟨rfl, fun k => (tile k).1, fun k => (tile k).2.1, fun k => (tile k).2.2, fun _ => rfl⟩

theorem FetchGround.addFetch (s : State) (k p : Nat) : FetchGround s (s.addFetch k p) := by
  unfold State.addFetch
  dsimp only
  split
  · exact (FetchGround.withFetches s _).trans (.fillStores _ _)
  · exact .withFetches s _

theorem FetchGround.sampleInputs (s : State) (l : List Nat) : FetchGround s (s.each State.sampleInput l) := by
  induction l generalizing s with
  | nil => exact .refl s
  | cons i is ih => exact (FetchGround.setInput s i _).trans (ih _)

/-- The list's forming takes the mark `cleared` off the plates (R144). -/
theorem FetchGround.uncleared (s : State) (hc : s.plates.wf Plate.por = true) :
    FetchGround s
      { s with
        fetches := [], plates := s.plates.mapListed Plate.por fun _ x => { x with cleared := false } } where
  frame := rfl
  fields _ := rfl
  current _ := rfl
  fromSource _ := rfl
  plates p := by
    have marked := Table.get_mapListed s.plates Plate.por (fun _ x => { x with cleared := false }) p hc rfl
    exact marked.trans (congrArg (fun b => { s.plate p with cleared := b }) (congrArg Plate.cleared marked).symm)

/-! ### The walk over descriptors reads the descriptors alone (R145) -/

section
variable {s t : State} (hd : ∀ d, t.descriptor d = s.descriptor d)
include hd

theorem State.imageRun_congr (k : Nat) (clip : List Nat) : t.imageRun k clip = s.imageRun k clip := by
  induction clip generalizing k with
  | nil => rfl
  | cons d ds ih => simp only [State.imageRun, hd, ih]

theorem State.lineAddress_congr (width : Nat) (run : List Nat) (r : Nat) :
    t.lineAddress width run r = s.lineAddress width run r := by
  induction run generalizing r with
  | nil => rfl
  | cons d ds ih => simp only [State.lineAddress, hd, ih]

end

/-! ### What stands on that ground -/

/-- The fetch of a plate for a tile as it is listed; one with no line to read has ended (log 24). -/
def State.listedFetch (s : State) (k p : Nat) : Fetch :=
  { s.newFetch k p with ended := decide (s.cropReads k p = []) }

theorem State.addFetch_fetches (s : State) (k p : Nat) : (s.addFetch k p).fetches = s.fetches ++ [s.listedFetch k p] :=
  (s.addFetch_spec k p).2

namespace FetchGround

variable {s t : State} (h : FetchGround s t)
include h

theorem link (l : Nat) : t.link l = s.link l := by rw [h.frame]; rfl

theorem descriptor (d : Nat) : t.descriptor d = s.descriptor d := by rw [h.frame]; rfl

theorem shadowed (k : Nat) : t.shadowed k = s.shadowed k := by simp only [State.shadowed, h.fields]

theorem holdsPlace (k : Nat) : t.holdsPlace k = s.holdsPlace k := by
  rw [State.holdsPlace, h.shadowed, h.fields]
  rfl

theorem placedTiles : t.placedTiles = s.placedTiles := by
  simp only [State.placedTiles, State.tileAt, h.fields]

theorem fetched (p : Nat) : (t.plate p).fetched = (s.plate p).fetched := by
  rw [h.plates p]
  rfl

theorem neededPlates (k : Nat) : t.neededPlates k = s.neededPlates k := by
  simp only [State.neededPlates, h.holdsPlace, h.link, h.fields, h.current, h.fromSource, h.fetched]

theorem pixelAddress (p image line column : Nat) :
    t.pixelAddress p image line column = s.pixelAddress p image line column := by
  rw [State.pixelAddress, State.lineAddress_congr h.descriptor, State.imageRun_congr h.descriptor, h.plates p]
  rfl

theorem cropColumns (k p : Nat) : t.cropColumns k p = s.cropColumns k p := by
  rw [State.cropColumns, h.plates p, h.fields]
  rfl

theorem cropReads (k p : Nat) : t.cropReads k p = s.cropReads k p := by
  have lines : t.cropLines k p = s.cropLines k p := by
    rw [State.cropLines, h.plates p, h.fields]
    rfl
  have image : (t.plate p).image = (s.plate p).image := by rw [h.plates p]
  simp only [State.cropReads, h.cropColumns, lines, image, h.pixelAddress, h.fields]

theorem listedFetch (k p : Nat) : t.listedFetch k p = s.listedFetch k p := by
  simp only [State.listedFetch, State.newFetch, h.cropReads, h.cropColumns]

end FetchGround

/-! ### The list (R150) -/

/-- A fold of updates that keep the ground of `s` and each list some fetches lists them all in the fold's order. -/
theorem FetchGround.foldl {α : Type} {s : State} {f : State → α → State} {adds : α → List Fetch}
    (step : ∀ u, FetchGround s u → ∀ a, FetchGround s (f u a) ∧ (f u a).fetches = u.fetches ++ adds a)
    (l : List α) (u : State) (hu : FetchGround s u) :
    FetchGround s (l.foldl f u) ∧ (l.foldl f u).fetches = u.fetches ++ l.flatMap adds := by
  induction l generalizing u with
  | nil => exact ⟨hu, (List.append_nil _).symm⟩
  | cons a as ih =>
    obtain ⟨kept, added⟩ := step u hu a
    obtain ⟨ground, listed⟩ := ih (f u a) kept
    exact ⟨ground, by rw [List.foldl_cons, listed, added, List.append_assoc, List.flatMap_cons]⟩

/-- The fetches that a state asks for: of the tiles that hold a place, in their order, one for each plate needed. -/
def State.wantedFetches (s : State) : List Fetch :=
  s.placedTiles.flatMap fun k => (s.neededPlates k).map fun p => s.listedFetch k p

theorem FetchGround.addFetches {s u : State} (hu : FetchGround s u) :
    FetchGround s u.addFetches ∧ u.addFetches.fetches = u.fetches ++ s.wantedFetches := by
  have add (k : Nat) (u : State) (hu : FetchGround s u) (p : Nat) :
      FetchGround s (u.addFetch k p) ∧ (u.addFetch k p).fetches = u.fetches ++ [s.listedFetch k p] :=
    ⟨hu.trans (.addFetch u k p), by rw [u.addFetch_fetches, hu.listedFetch]⟩
  have tile (u : State) (hu : FetchGround s u) (k : Nat) :
      FetchGround s ((u.neededPlates k).foldl (fun u p => u.addFetch k p) u) ∧
        ((u.neededPlates k).foldl (fun u p => u.addFetch k p) u).fetches =
          u.fetches ++ (s.neededPlates k).map fun p => s.listedFetch k p := by
    rw [hu.neededPlates, List.map_eq_flatMap]
    exact FetchGround.foldl (add k) _ u hu
  rw [State.addFetches, hu.placedTiles]
  exact FetchGround.foldl tile _ u hu

/-! ### The beginning of the render pass (R142, R150) -/

theorem State.sampleInput_input (s : State) (k j : Nat) :
    (s.sampleInput k).input j = if j = k then (s.input k).sampled else s.input j := by
  split
  case isTrue h => rw [h, State.sampleInput, State.input_setInput]
  case isFalse h => rw [State.sampleInput, State.input_setInput_other _ _ _ _ h]

theorem State.formFetchList_input (s : State) (i : Nat) : s.formFetchList.input i = s.input i := by
  have add (u : State) (k p : Nat) : (u.addFetch k p).input i = u.input i := by
    rw [(u.addFetch_spec k p).1]
    rfl
  exact State.foldl_same (State.input · i)
    (fun u k => State.foldl_same (State.input · i) (fun v p => add v k p) u _) _ _

/-- Each of the four inputs is sampled once. -/
theorem State.beginRender_input (s : State) (i : Nat) (hi : i < 4) : s.beginRender.input i = (s.input i).sampled := by
  have sampled := (State.each_counts State.input (fun _ => []) (fun _ => Input.sampled) (fun _ _ => false)
    State.sampleInput_input (fun _ _ => rfl) s (List.range 4) List.nodup_range).1 i
  rw [if_pos (List.mem_range.2 hi)] at sampled
  exact (State.formFetchList_input _ i).trans sampled

section
variable (s : State) (hc : Canonical s)
include hc

theorem State.beginRender_ground :
    FetchGround s ((s.each State.sampleInput (List.range 4)).formFetchList) ∧
      ((s.each State.sampleInput (List.range 4)).formFetchList).fetches = s.wantedFetches := by
  have sampled := FetchGround.sampleInputs s (List.range 4)
  have canonical : Canonical (s.each State.sampleInput (List.range 4)) :=
    (Kept.each (f := State.sampleInput) (fun t i => Kept.setInput t i _) s _).canonical hc
  exact (sampled.trans (.uncleared _ canonical.plates)).addFetches

theorem State.beginRender_fetches : s.beginRender.fetches = s.wantedFetches := (s.beginRender_ground hc).2

theorem State.beginRender_wltSample : s.beginRender.wltSample = s.wltPin :=
  (congrArg State.wltPin (s.beginRender_ground hc).1.frame :)

end

theorem State.wantedFetches_sources (s : State) :
    (s.wantedFetches.map fun f => (f.tile, f.source)) =
      s.placedTiles.flatMap fun k => (s.neededPlates k).map fun p => (k, p + 5) := by
  simp only [State.wantedFetches, List.map_flatMap, List.map_map]
  rfl

/-- A fetch that is listed reads its tile's crop of its plate, and has ended where there is no line to read. -/
theorem State.mem_wantedFetches {s : State} {f : Fetch} (hf : f ∈ s.wantedFetches) {p : Nat} (hp : f.source = p + 5) :
    f.reads = s.cropReads f.tile p ∧ f.columns = s.cropColumns f.tile p ∧ (f.ended = true ↔ f.reads = []) := by
  obtain ⟨k, -, hk⟩ := List.mem_flatMap.1 hf
  obtain ⟨q, -, rfl⟩ := List.mem_map.1 hk
  obtain rfl : q = p := Nat.add_right_cancel hp
  exact ⟨rfl, rfl, decide_eq_true_iff⟩

/-! ### What a tile needs, and the lines of its crop (R145, R150) -/

/-- The plates that a tile shows, current source before from source, one where both are the same. -/
def Tile.shownPlates (x : Tile) : List Nat :=
  (plateOf x.current).toList ++ ((x.fromSource.filter fun v => v != x.current).bind plateOf).toList

theorem Tile.mem_shownPlates (x : Tile) (p : Nat) :
    p ∈ x.shownPlates ↔ plateOf x.current = some p ∨ ∃ v, x.fromSource = some v ∧ plateOf v = some p := by
  have other : p ∈ ((x.fromSource.filter fun v => v != x.current).bind plateOf).toList ↔
      ∃ v, x.fromSource = some v ∧ v ≠ x.current ∧ plateOf v = some p := by
    simp [Option.mem_toList, Option.bind_eq_some_iff, Option.filter_eq_some_iff, and_assoc]
  rw [Tile.shownPlates, List.mem_append, Option.mem_toList, other]
  constructor
  · rintro (h | ⟨v, hv, -, h⟩)
    · exact .inl h
    · exact .inr ⟨v, hv, h⟩
  · rintro (h | ⟨v, hv, h⟩)
    · exact .inl h
    · by_cases same : v = x.current
      · exact .inl (same ▸ h)
      · exact .inr ⟨v, hv, same, h⟩

theorem nodup_toList (o : Option Nat) : o.toList.Nodup := by
  cases o with
  | none => exact List.nodup_nil
  | some v => exact List.nodup_cons.2 ⟨List.not_mem_nil, List.nodup_nil⟩

/-- Different sources are different plates. -/
theorem Tile.shownPlates_nodup (x : Tile) : x.shownPlates.Nodup := by
  refine List.nodup_append.2 ⟨nodup_toList _, nodup_toList _, fun p hp q hq same => ?_⟩
  obtain ⟨v, hv, hq⟩ := Option.bind_eq_some_iff.1 (Option.mem_toList.1 hq)
  have differs : v ≠ x.current := bne_iff_ne.1 (Option.filter_eq_some_iff.1 hv).2
  have current := plateOf_some (Option.mem_toList.1 hp)
  have source := plateOf_some hq
  omega

theorem State.neededPlates_eq (s : State) (k : Nat) :
    s.neededPlates k =
      if s.holdsPlace k = true ∧ (s.link (s.tile k).fields.link).state = .active then
        (s.tile k).shownPlates.filter fun p => (s.plate p).fetched
      else [] := rfl

theorem State.mem_neededPlates (s : State) (k p : Nat) :
    p ∈ s.neededPlates k ↔
      s.holdsPlace k = true ∧ (s.link (s.tile k).fields.link).state = .active ∧
        (plateOf (s.tile k).current = some p ∨ ∃ v, (s.tile k).fromSource = some v ∧ plateOf v = some p) ∧
        (s.plate p).fetched = true := by
  rw [State.neededPlates_eq, ← Tile.mem_shownPlates]
  split
  case isTrue h => simp [h]
  case isFalse h =>
    refine iff_of_false List.not_mem_nil ?_
    rintro ⟨holds, active, -⟩
    exact h ⟨holds, active⟩

theorem State.neededPlates_nodup (s : State) (k : Nat) : (s.neededPlates k).Nodup := by
  rw [State.neededPlates_eq]
  split
  · exact List.Pairwise.filter _ (Tile.shownPlates_nodup _)
  · exact .nil

theorem State.mem_cropReads {s : State} {k p a : Nat} (ha : a ∈ s.cropReads k p) :
    ∃ r < 128, (s.tile k).fields.cropY + r < (s.plate p).height ∧
      s.pixelAddress p (s.plate p).image ((s.tile k).fields.cropY + r) (s.tile k).fields.cropX = some a := by
  unfold State.cropReads at ha
  split at ha
  case isTrue => exact absurd ha List.not_mem_nil
  case isFalse =>
    obtain ⟨r, hr, address⟩ := List.mem_filterMap.1 ha
    have line : r < min 128 ((s.plate p).height - (s.tile k).fields.cropY) := List.mem_range.1 hr
    exact ⟨r, by omega, by omega, address⟩

end Sys2Proof.Machine
end

section
/-! PROOF. What the list goes through in its frame (R151, R152), the pixel path (R159), and both with the list's forming
together. -/

namespace Sys2Proof.Machine

/-! ### Source changes (R151, R157) -/

/-- Behind the fetch in progress, those that the tile no longer needs go (log 31). -/
theorem State.dropFetches_behind (s : State) (k : Nat) (done rest : List Fetch) (f : Fetch)
    (hl : s.fetches = done ++ f :: rest) (hd : ∀ g ∈ done, g.ended = true) (hf : f.ended = false) :
    (s.dropFetches k).fetches = done ++ f :: rest.filter fun g => !Fetch.dropped (s.tile k) k g := by
  rw [State.dropFetches, hl]
  exact dropUnbegun_behind _ done rest f hd hf

section
variable (s : State) (k p : Nat) (hp : plateOf (s.tile k).current = some p)
include hp

theorem State.fetchForCut_waits (h : (s.plate p).cleared = true) : s.fetchForCut k = s := by
  simp [State.fetchForCut, hp, h]

theorem State.fetchForCut_adds (holds : s.holdsPlace k = true)
    (active : (s.link (s.tile k).fields.link).state = .active) (fetched : (s.plate p).fetched = true)
    (h : (s.plate p).cleared = false) : s.fetchForCut k = s.addFetch k p := by
  simp [State.fetchForCut, hp, holds, active, fetched, h]

end

/-! ### Late packets (R152) -/

theorem nodup_eraseDups : (l : List Nat) → l.eraseDups.Nodup
  | [] => .nil
  | a :: as => by
    rw [List.eraseDups_cons]
    exact List.nodup_cons.2 ⟨by simp, nodup_eraseDups _⟩
termination_by l => l.length
decreasing_by exact Nat.lt_succ_of_le (List.length_filter_le _ _)

/-- A packet is late for each plate once. -/
theorem State.lateSources_nodup (s : State) (t : Nat) : (s.lateSources t).Nodup := by
  unfold State.lateSources
  split
  · exact List.Pairwise.map _ (fun _ _ differs same => differs (Nat.add_right_cancel same)) (s.neededPlates_nodup t)
  · exact nodup_eraseDups _

theorem plateOf_eq_iff (v p : Nat) (hp : p < 8) : plateOf v = some p ↔ v = p + 5 := by
  refine ⟨plateOf_some, ?_⟩
  rintro rfl
  exact if_pos (by omega)

theorem State.countLatePlate_plate (s : State) (v p : Nat) (hp : p < 8) :
    (s.countLatePlate v).plate p =
      { s.plate p with late := if v = p + 5 then saturate 65535 (s.plate p).late else (s.plate p).late } := by
  have reads := plateOf_eq_iff v p hp
  unfold State.countLatePlate
  split
  case h_1 q hq =>
    by_cases same : p = q
    · rw [← same, State.plate_setPlate, if_pos (reads.1 (same ▸ hq))]
    · rw [State.plate_setPlate_other _ _ _ _ same, if_neg fun h => same (Option.some.inj ((reads.2 h).symm.trans hq))]
  case h_2 unread => rw [if_neg fun h => by simp [reads.2 h] at unread]

/-- Of a list without repetition each plate counts once. -/
theorem State.each_countLatePlate (s : State) (l : List Nat) (hl : l.Nodup) (p : Nat) (hp : p < 8) :
    (s.each State.countLatePlate l).plate p =
      { s.plate p with late := if p + 5 ∈ l then saturate 65535 (s.plate p).late else (s.plate p).late } := by
  induction l generalizing s with
  | nil => rfl
  | cons v vs ih =>
    obtain ⟨fresh, rest⟩ := List.nodup_cons.1 hl
    rw [State.each, ih _ rest, State.countLatePlate_plate _ _ _ hp]
    by_cases h : v = p + 5
    · subst h
      simp [fresh]
    · simp [h, Ne.symm h]

/-- A packet that begins late raises FETCH_LATE and counts, for its tile and for each late plate. -/
theorem State.beginImage_late (s : State) (past : Bool) (v : TileSet) (hl : s.lateSources v.tile ≠ []) :
    s.beginImage past v =
      ((s.raise .fetchLate).setTile v.tile
        { s.tile v.tile with fetchLate := saturate 65535 (s.tile v.tile).fetchLate }).each State.countLatePlate
          (s.lateSources v.tile) := if_pos hl

theorem State.countLatePlate_frame (s : State) (v : Nat) :
    s.countLatePlate v = { s with plates := (s.countLatePlate v).plates } := by
  unfold State.countLatePlate
  split <;> rfl

theorem State.each_countLatePlate_event (s : State) (l : List Nat) (k : Nat) :
    (s.each State.countLatePlate l).event k = s.event k :=
  State.each_same (State.event · k) (fun t v => by rw [t.countLatePlate_frame v]; rfl) s l

theorem State.each_countLatePlate_tile (s : State) (l : List Nat) (k : Nat) :
    (s.each State.countLatePlate l).tile k = s.tile k :=
  State.each_same (State.tile · k) (fun t v => by rw [t.countLatePlate_frame v]; rfl) s l

/-! ### The pixel path (R159) -/

theorem outputComponent_toNat (cur gain trim : Nat) (hc : cur ≤ 1023) (ht : trim ≤ 65535) (hg : gain ≤ 65535) :
    (outputComponent cur gain trim).toNat = levelProduct cur (levelProduct gain trim) := by
  have shaped := levelProduct_le gain trim ht
  have lowered := levelProduct_le cur (levelProduct gain trim) (by omega)
  rw [outputComponent, BitVec.toNat_ofNat, Nat.mod_eq_of_lt (by omega)]

/-- The gains only lower a component. -/
theorem outputComponent_le (cur gain trim : Nat) (hc : cur ≤ 1023) (ht : trim ≤ 65535) (hg : gain ≤ 65535) :
    (outputComponent cur gain trim).toNat ≤ cur := by
  rw [outputComponent_toNat cur gain trim hc ht hg]
  exact levelProduct_le _ _ (Nat.le_trans (levelProduct_le gain trim ht) hg)

theorem levelProduct_zero_left (b : Nat) : levelProduct 0 b = 0 := by
  rw [levelProduct, Nat.zero_mul]

/-- Settles O24: the list is the one asked for at the render's beginning; its drops, a cut's fetch, the late packets and
the pixels each by their own rule. -/
theorem inputsAndFetchesFollowTheFrame : Obligations.InputsAndFetchesFollowTheFrame := by
  refine ⟨fun s hc => ⟨s.beginRender_input, s.beginRender_wltSample hc, ?_, ?_, ?_⟩,
    fun s k p => ⟨s.mem_neededPlates k p, s.neededPlates_nodup k, fun a => State.mem_cropReads⟩,
    fun s k => s.dropFetches_behind k, fun s k p hp => ⟨s.fetchForCut_waits k p hp, fun holds active fetched h => ?_⟩,
    fun s past v hl => ?_, fun cur frm e D gain trim hcur hfrm he hD hg ht => ?_⟩
  · rw [s.beginRender_work]
  · rw [s.beginRender_fetches hc, s.wantedFetches_sources]
  · rw [s.beginRender_fetches hc]
    exact fun f hf p => State.mem_wantedFetches hf
  · refine ⟨s.fetchForCut_adds k p hp holds active fetched h, ?_⟩
    rw [s.addFetch_fetches, List.map_append]
    rfl
  · rw [s.beginImage_late past v hl]
    refine ⟨?_, ?_, fun p hp => ?_⟩
    · rw [State.each_countLatePlate_event]
      exact Table.get_set_self _ _ _ _
    · rw [State.each_countLatePlate_tile, State.tile_setTile]
    · rw [State.each_countLatePlate _ _ (s.lateSources_nodup v.tile) p hp]
      rfl
  · obtain ⟨low, high⟩ := mixLevel_between frm cur e hD he
    refine ⟨Nat.min_comm cur frm ▸ low, Nat.max_comm cur frm ▸ high, rfl, mixLevel_start frm cur D hD,
      ⟨outputComponent_toNat cur gain trim hcur ht hg, outputComponent_le cur gain trim hcur ht hg⟩, ?_, ?_⟩
    · rw [outputComponent_toNat cur _ _ hcur (Nat.le_refl _) (Nat.le_refl _), levelProduct_full, levelProduct_full]
    · rw [outputComponent, levelProduct_zero_left, levelProduct_zero]
      rfl

end Sys2Proof.Machine
end

section
/-! PROOF. LINK_CUE, UNLINK_CUE and ERASE_CUE (R172 to R174): what each command's own checks leave, and the one frame of
the chain's changes. -/

namespace Sys2Proof.Machine

/-! ### The cue before another (R173) -/

theorem State.predecessor_some (s : State) (l c p : Nat) (h : s.predecessor l c = some p) :
    p ∈ s.chain l ∧ (s.cue p).next = some c :=
  ⟨List.mem_of_find?_eq_some h, by simpa using List.find?_some h⟩

theorem State.predecessor_none (s : State) (l c : Nat) (h : s.predecessor l c = none) (p : Nat) (hp : p ∈ s.chain l) :
    (s.cue p).next ≠ some c := fun e => List.find?_eq_none.1 h p hp (beq_iff_eq.2 e)

/-! ### Changes of a chain -/

/-- `t` is `s` but for some cues and one list descriptor. -/
def Relinked (s t : State) (l : Nat) (changed : List Nat) : Prop :=
  (∀ y, y ∉ changed → t.cue y = s.cue y) ∧ (∀ m, m ≠ l → t.list m = s.list m) ∧
    t = { s with cues := t.cues, lists := t.lists }

section
variable {s t : State} {l : Nat} {changed : List Nat}

theorem Relinked.refl (s : State) (l : Nat) (changed : List Nat) : Relinked s s l changed :=
  ⟨fun _ _ => rfl, fun _ _ => rfl, rfl⟩

theorem Relinked.setCue (h : Relinked s t l changed) (c : Nat) (v : Cue) (hc : c ∈ changed) :
    Relinked s (t.setCue c v) l changed := by
  obtain ⟨cues, lists, frame⟩ := h
  refine ⟨fun y hy => ?_, lists, ?_⟩
  · have other : y ≠ c := fun e => hy (e ▸ hc)
    rw [State.cue_setCue_other _ _ _ _ other, cues y hy]
  · rw [frame]
    rfl

theorem Relinked.setList (h : Relinked s t l changed) (v : CueList) : Relinked s (t.setList l v) l changed := by
  obtain ⟨cues, lists, frame⟩ := h
  refine ⟨cues, fun m hm => ?_, ?_⟩
  · rw [State.list_setList_other _ _ _ _ hm, lists m hm]
  · rw [frame]
    rfl

end

/-! ### A cue linked at the tail (R172) -/

section
variable (s : State) (l c : Nat)

theorem State.linkTail_relinked : Relinked s (s.linkTail l c) l (c :: (s.list l).tail.toList) := by
  have armed := (Relinked.refl s l (c :: (s.list l).tail.toList)).setCue c
    { s.cue c with state := .armed, late := false, next := none } List.mem_cons_self
  unfold State.linkTail
  dsimp only
  split
  · exact armed.setList _
  · rename_i t ht
    exact (armed.setCue t _ (by simp [ht])).setList _

theorem State.linkTail_list :
    (s.linkTail l c).list l =
      { s.list l with first := if (s.list l).tail = none then some c else (s.list l).first, tail := some c } := by
  unfold State.linkTail
  dsimp only
  split <;> simp_all

theorem State.linkTail_cue (h : (s.list l).tail ≠ some c) :
    (s.linkTail l c).cue c = { s.cue c with state := .armed, late := false, next := none } := by
  unfold State.linkTail
  dsimp only
  split
  · exact State.cue_setCue _ _ _
  · rename_i t ht
    have other : c ≠ t := fun e => h (e ▸ ht)
    exact (State.cue_setCue_other _ _ _ _ other).trans (State.cue_setCue _ _ _)

theorem State.linkTail_tail (y : Nat) (hy : (s.list l).tail = some y) (hc : y ≠ c) :
    (s.linkTail l c).cue y = { s.cue y with next := some c } := by
  unfold State.linkTail
  dsimp only
  rw [hy]
  exact (State.cue_setCue _ _ _).trans (by rw [State.cue_setCue_other _ _ _ _ hc])

end

/-! ### A cue linked after another (R172) -/

section
variable (s : State) (l c x : Nat)

theorem State.linkAfter_relinked : Relinked s (s.linkAfter l c x) l [c, x] :=
  (((Relinked.refl s l [c, x]).setCue c _ List.mem_cons_self).setCue x _ (by simp)).setList _

theorem State.linkAfter_cue (h : c ≠ x) :
    (s.linkAfter l c x).cue c = { s.cue c with state := .armed, late := false, next := (s.cue x).next } :=
  (State.cue_setCue_other _ _ _ _ h).trans (State.cue_setCue _ _ _)

theorem State.linkAfter_before (h : c ≠ x) : (s.linkAfter l c x).cue x = { s.cue x with next := some c } :=
  (State.cue_setCue _ _ _).trans (by rw [State.cue_setCue_other _ _ _ _ h.symm])

theorem State.linkAfter_list :
    (s.linkAfter l c x).list l =
      { s.list l with
        tail := if (s.cue x).next.isNone then some c else (s.list l).tail
        head := if (s.cue x).next.isSome ∧ (s.cue x).next = (s.list l).head then some c else (s.list l).head } :=
  State.list_setList _ _ _

end

/-! ### A cue out of its chain (R173) -/

section
variable (s : State) (l c : Nat)

theorem State.unlink_relinked : Relinked s (s.unlink l c) l (c :: (s.predecessor l c).toList) := by
  have start := Relinked.refl s l (c :: (s.predecessor l c).toList)
  unfold State.unlink
  dsimp only
  split
  · rename_i p hp
    exact ((start.setCue p _ (by simp [hp])).setCue c _ List.mem_cons_self).setList _
  · exact (start.setCue c _ List.mem_cons_self).setList _

theorem State.unlink_cue : (s.unlink l c).cue c = { s.cue c with state := .loaded, next := none, late := false } := by
  unfold State.unlink
  dsimp only
  refine (State.cue_setCue _ _ _).trans ?_
  split
  · rename_i p hp
    by_cases self : c = p
    · rw [← self, State.cue_setCue]
    · rw [State.cue_setCue_other _ _ _ _ self]
  · rfl

theorem State.unlink_predecessor (p : Nat) (hp : s.predecessor l c = some p) (hc : p ≠ c) :
    (s.unlink l c).cue p = { s.cue p with next := (s.cue c).next } := by
  unfold State.unlink
  rw [hp]
  exact (State.cue_setCue_other _ _ _ _ hc).trans (State.cue_setCue _ _ _)

theorem State.unlink_list :
    (s.unlink l c).list l =
      { s.list l with
        first := if (s.list l).first = some c then (s.cue c).next else (s.list l).first
        tail := if (s.list l).tail = some c then s.predecessor l c else (s.list l).tail
        head := if (s.list l).head = some c then (s.cue c).next else (s.list l).head } :=
  State.list_setList _ _ _

end

/-! ### The checks (R172 to R174) -/

theorem Cue.inList_of_loaded (x : Cue) (h : x.state = .loaded) : x.inList = false := by simp [Cue.inList, h]

/-- A cue that stands in a list is not one that is only LOADED. -/
theorem ne_of_inList (s : State) (c x : Nat) (hc : (s.cue c).state = .loaded) (hx : (s.cue x).inList = true) : c ≠ x := by
  rintro rfl
  simp [Cue.inList_of_loaded _ hc] at hx

section
variable (h : Header) (c : Half) (s : State) (hc : c.toNat ≤ 511)
include hc

section
variable (lb : Byte) (l : Nat) (hl : listOf lb = some l) (he : s.mayEdit h l = true)
  (hs : (s.cue c.toNat).state = .loaded) (hx : (s.cue c.toNat).list = l)
include hl he hs hx

theorem linkCueOwn_tail :
    linkCueOwn h lb c .tail s = .accept (s.linkTail l c.toNat) false ((s.linkTail l c.toNat).linkFields l) := by
  have unlisted := Cue.inList_of_loaded _ hs
  simp [linkCueOwn, hl, Nat.not_lt.2 hc, he, hs, unlisted, hx]

theorem linkCueOwn_after (y : Half) (hy : y.toNat ≤ 511) (hi : (s.cue y.toNat).inList = true)
    (hyl : (s.cue y.toNat).list = l) :
    linkCueOwn h lb c (.after y) s =
      .accept (s.linkAfter l c.toNat y.toNat) false ((s.linkAfter l c.toNat y.toNat).linkFields l) := by
  have unlisted := Cue.inList_of_loaded _ hs
  simp [linkCueOwn, hl, Nat.not_lt.2 hc, Nat.not_lt.2 hy, he, hs, unlisted, hx, hi, hyl]

end

/-- UNLINK_CUE of a cue in a list turns on whether it is the head of a RUNNING one. -/
theorem unlinkCueOwn_listed (he : s.mayEdit h (s.cue c.toNat).list = true) (hi : (s.cue c.toNat).inList = true) :
    unlinkCueOwn h c s =
      if (s.list (s.cue c.toNat).list).state = .running ∧ (s.list (s.cue c.toNat).list).head = some c.toNat then
        .refuse .inUse
      else .accept (s.unlink (s.cue c.toNat).list c.toNat) false [] := by
  simp [unlinkCueOwn, Nat.not_lt.2 hc, he, hi]

theorem eraseCueOwn_accepts (he : s.mayEdit h (s.cue c.toNat).list = true) (hs : (s.cue c.toNat).state = .loaded) :
    eraseCueOwn h c s =
      .accept (({ s with actionFree := s.actionFree ++ (s.cue c.toNat).chain }).setCue c.toNat (Cue.por c.toNat)) false
        (u16 (s.actionFree.length + (s.cue c.toNat).chain.length)) := by
  have unlisted := Cue.inList_of_loaded _ hs
  simp [eraseCueOwn, Nat.not_lt.2 hc, he, hs, unlisted]

end

/-- The work of the last frame start that a command on lists or chains finds done (R183, log 4), as O36 and O37 state
it: none of the evaluation is left, and where none was outstanding nothing has changed. -/
theorem State.evaluated_met (s : State) (h : Header) :
    ((s.met h).evaluateAll 40).work.evaluation = none ∧
      (s.work.evaluation = none → (s.met h).evaluateAll 40 = s.met h) :=
  ⟨(s.met h).evaluateAll_done, fun he => (s.met h).evaluateAll_none 40 (by rwa [State.met_work])⟩

/-- Settles O36: each command's own checks on the chain as the evaluation has left it, and what its effect writes. -/
theorem cueEditsComplete : Obligations.CueEditsComplete := by
  refine ⟨fun s l c => ⟨s.predecessor_some l c, s.predecessor_none l c⟩, ?_⟩
  intro s h c hc u x others
  obtain ⟨finished, unchanged⟩ := s.evaluated_met h
  refine ⟨finished, unchanged, fun lb l a hl he hs hx => ?_, fun lb l y a hl he hs hx hy hi hyl => ?_,
    fun a he hi => ⟨fun running head => ?_, fun free => ?_⟩, fun a he hs => ?_⟩
  · exact ⟨_, exec_accepted s _ h _ false _ rfl a (linkCueOwn_tail h c u hc lb l hl he hs hx), u.linkTail_list l _,
      u.linkTail_cue l _, u.linkTail_tail l _, u.linkTail_relinked l _⟩
  · have other := ne_of_inList u _ _ hs hi
    refine ⟨_, exec_accepted s _ h _ false _ rfl a (linkCueOwn_after h c u hc lb l hl he hs hx y hy hi hyl),
      u.linkAfter_cue l _ _ other, u.linkAfter_before l _ _ other, fun hn => ?_, fun n hn head => ?_,
      fun n hn head => ?_, u.linkAfter_relinked l _ _⟩
    · simp [u.linkAfter_list, hn]
    · simp [u.linkAfter_list, hn, head]
    · simp [u.linkAfter_list, hn, Ne.symm head]
  · have own := unlinkCueOwn_listed h c u hc he hi
    rw [if_pos ⟨running, head⟩] at own
    exact exec_refusedAt s h _ .inUse rfl a own
  · have own := unlinkCueOwn_listed h c u hc he hi
    rw [if_neg free] at own
    exact ⟨_, exec_accepted s _ h _ false _ rfl a own, u.unlink_cue _ _, u.unlink_predecessor _ _, u.unlink_list _ _,
      u.unlink_relinked _ _⟩
  · have own := eraseCueOwn_accepts h c (s.met h) hc (by simpa using he) (by simpa using hs)
    rw [State.met_cue, State.met_actionFree] at own
    exact exec_accepted s _ h _ false _ rfl a own

end Sys2Proof.Machine
end

section
/-! PROOF. SET_LIST, START_LIST, STOP_LIST and GO (R175 to R177): the arming of a list's cues, which a new pass shares, and
what each command's own checks leave. -/

namespace Sys2Proof.Machine

/-! ### A list's cues ARMED (R176, R182) -/

/-- A cue ARMED with its late mark off. -/
def Cue.armed (x : Cue) : Cue := { x with state := .armed, late := false }

theorem State.armList_frame (s : State) (l : Nat) : s.armList l = { s with cues := (s.armList l).cues } := by
  suffices each : ∀ (cs : List Nat) (t : State),
      t.each (fun t c => t.setCue c { t.cue c with state := .armed, late := false }) cs =
        { t with cues := (t.each (fun t c => t.setCue c { t.cue c with state := .armed, late := false }) cs).cues } from
    each (s.chain l) s
  intro cs
  induction cs with
  | nil => exact fun t => rfl
  | cons c cs ih => exact fun t => ih _

theorem State.armList_list (s : State) (l m : Nat) : (s.armList l).list m = s.list m := by
  rw [s.armList_frame l]
  rfl

/-- Every cue of the list is ARMED, and no other is touched. -/
theorem State.armList_cue (s : State) (l y : Nat) :
    (s.armList l).cue y = if y ∈ s.chain l then (s.cue y).armed else s.cue y := by
  suffices each : ∀ (cs : List Nat) (t : State),
      (t.each (fun t c => t.setCue c { t.cue c with state := .armed, late := false }) cs).cue y =
        if y ∈ cs then (t.cue y).armed else t.cue y from each (s.chain l) s
  intro cs
  induction cs with
  | nil => exact fun t => rfl
  | cons c cs ih =>
    intro t
    rw [State.each, ih]
    by_cases hy : y = c
    · subst hy
      simp [Cue.armed]
    · simp [hy, State.cue_setCue_other]

/-! ### The checks (R175 to R177) -/

@[simp] theorem State.met_listNeedsForce (s : State) (h : Header) (l : Nat) :
    (s.met h).listNeedsForce l = s.listNeedsForce l := by
  simp [State.listNeedsForce]

/-- SAFETY and the acting source are the two that GO takes (R177). -/
theorem go_permitted {n acting : Nat} (hp : n = 0 ∨ n = acting) : ¬ (n ≠ 0 ∧ n ≠ acting) :=
  fun ⟨top, other⟩ => hp.elim top other

section
variable (h : Header) (lb : Byte) (l : Nat) (s : State) (hl : listOf lb = some l)
include hl

theorem setListOwn_accepts (a n : Byte) (hs : h.src ≤ 1) (ha : a.toNat ≤ 4) (hst : (s.list l).state = .stopped)
    (hf : (s.source a.toNat).mayForce = true ∨ s.listNeedsForce l = false) :
    setListOwn h lb a n s =
      .accept (s.setList l { s.list l with acting := a.toNat, loop := n.toNat }) false
        ({ s.list l with acting := a.toNat, loop := n.toNat } : CueList).bytes := by
  have permitted : (s.source a.toNat).mayForce = false → s.listNeedsForce l = false := fun off =>
    hf.resolve_left (by simp [off])
  simp only [setListOwn, h.configures_of_le hs, hl]
  simpa [Nat.not_lt.2 ha, hst] using permitted

/-- The descriptor of a list that a START_LIST taken at frame n sets going (R176). -/
def CueList.started (d : CueList) (n : Word) : CueList :=
  { d with
    state := .running, head := d.first, passes := if d.loop = 255 then 0 else d.loop, goPending := false,
    lastFire := n + 2 }

/-- START_LIST of a list that has a first cue turns on whether the list is RUNNING. -/
theorem startListOwn_nonempty (he : s.mayEdit h l = true) (hf : (s.list l).first ≠ none) :
    startListOwn h lb s =
      if (s.list l).state = .running then .refuse .inUse
      else .accept ((s.armList l).setList l ((s.list l).started s.timer.counter)) false
        ((s.list l).started s.timer.counter).bytes := by
  have timer : (s.armList l).timer = s.timer := by rw [s.armList_frame l]
  simp only [startListOwn, hl, he, hf, s.armList_list, timer]
  rfl

theorem stopListOwn_permitted (he : s.mayEdit h l = true) :
    stopListOwn h lb s =
      if (s.list l).state = .stopped then .accept s false (s.list l).bytes
      else .accept (s.setList l { s.list l with state := .stopped, goPending := false }) false
        ({ s.list l with state := .stopped, goPending := false } : CueList).bytes := by
  simp only [stopListOwn, hl, he]
  rfl

theorem goOwn_foreign (h0 : h.src ≠ 0) (ha : h.src ≠ (s.list l).acting) : goOwn h lb s = .refuse .notPermitted := by
  simp only [goOwn, hl]
  exact if_pos ⟨h0, ha⟩

section
variable (hp : h.src = 0 ∨ h.src = (s.list l).acting)
include hp

/-- GO from SAFETY or the acting source of a RUNNING list turns on whether a GO is pending. -/
theorem goOwn_running (hs : (s.list l).state = .running) :
    goOwn h lb s =
      if (s.list l).goPending then .refuse .alreadyPending
      else .accept (s.setList l { s.list l with goPending := true }) false
        (be32 s.timer.counter ++ opt16 (s.list l).head) := by
  simp only [goOwn, hl, if_neg (go_permitted hp), hs]

theorem goOwn_ended (hs : (s.list l).state = .ended) : goOwn h lb s = .refuse .listEnded := by
  simp only [goOwn, hl, if_neg (go_permitted hp), hs]

theorem goOwn_stopped (hs : (s.list l).state = .stopped) : goOwn h lb s = .refuse .notRunning := by
  simp only [goOwn, hl, if_neg (go_permitted hp), hs]

end

end

/-- Settles O37: each command's own checks on the list as the evaluation has left it. -/
theorem listCommandsComplete : Obligations.ListCommandsComplete := by
  intro s h lb l hl
  refine ⟨fun a n adm hs ha hst hf => ?_, ?_⟩
  · have own := setListOwn_accepts h lb l (s.met h) hl a n hs ha (by simpa using hst) (by simpa using hf)
    rw [State.met_list] at own
    exact exec_accepted s _ h _ false _ rfl adm own
  intro u
  obtain ⟨finished, unchanged⟩ := s.evaluated_met h
  have counter : u.timer.counter = s.timer.counter := by
    rw [(KeptRoom.evaluateAll (s.met h) 40).timer, State.met_timer]
  refine ⟨finished, unchanged, fun a he hf => ⟨fun running => ?_, fun idle => ⟨?_, ?_⟩⟩, fun a he going => ?_,
    fun a he still => ?_, fun a h0 ha => ?_, fun a hp => ⟨fun running free => ?_, fun running waits => ?_, fun ended => ?_,
      fun still => ?_⟩⟩
  · have own := startListOwn_nonempty h lb l u hl he hf
    rw [if_pos running] at own
    exact exec_refusedAt s h _ .inUse rfl a own
  · have own := startListOwn_nonempty h lb l u hl he hf
    rw [if_neg idle, counter] at own
    exact exec_accepted s _ h _ false _ rfl a own
  · rw [u.armList_frame l]
    exact finished
  · have own := stopListOwn_permitted h lb l u hl he
    rw [if_neg going] at own
    exact exec_accepted s _ h _ false _ rfl a own
  · have own := stopListOwn_permitted h lb l u hl he
    rw [if_pos still] at own
    exact exec_accepted s _ h _ false _ rfl a own
  · exact exec_refusedAt s h _ .notPermitted rfl a (goOwn_foreign h lb l u hl h0 ha)
  · have own := goOwn_running h lb l u hl hp running
    rw [free, counter] at own
    exact exec_accepted s _ h _ false _ rfl a own
  · have own := goOwn_running h lb l u hl hp running
    rw [waits] at own
    exact exec_refusedAt s h _ .alreadyPending rfl a own
  · exact exec_refusedAt s h _ .listEnded rfl a (goOwn_ended h lb l u hl hp ended)
  · exact exec_refusedAt s h _ .notRunning rfl a (goOwn_stopped h lb l u hl hp still)

end Sys2Proof.Machine
end

section
/-! PROOF. The evaluation of the cue lists (R178 to R182): when a head is due, what the firing of a due head leaves, what
follows the last cue of a pass, and what a due head that does not fire leaves. -/

namespace Sys2Proof.Machine

/-! ### When a head is due (R178) -/

theorem State.headDue_iff (s : State) (l : Nat) :
    s.headDue l = true ↔ (s.list l).state = .running ∧ ∃ c, (s.list l).head = some c ∧
      ((s.list l).goPending = true ∨
        (∃ f, (s.cue c).trigger = .atFrame f ∧ signedDiff f (s.timer.counter + 1) ≤ 0) ∨
        ∃ d, (s.cue c).trigger = .follow d ∧ (d : Int) ≤ signedDiff (s.timer.counter + 1) (s.list l).lastFire) := by
  unfold State.headDue
  cases hh : (s.list l).head with
  | none => simp [hh]
  | some c => cases ht : (s.cue c).trigger <;> simp [hh, ht]

/-! ### The chain of a list -/

/-- The chain of a list is a matter of its first cue and of each cue's next. -/
theorem State.chain_congr {s t : State} (l : Nat) (hf : (t.list l).first = (s.list l).first)
    (hn : ∀ c, (t.cue c).next = (s.cue c).next) : t.chain l = s.chain l := by
  have walk (n : Nat) (o : Option Nat) : t.chainFrom n o = s.chainFrom n o := by
    induction n generalizing o with
    | zero => rfl
    | succ n ih =>
      cases o with
      | none => rfl
      | some c => rw [State.chainFrom, State.chainFrom, hn, ih]
  rw [State.chain, State.chain, hf, walk]

/-! ### A head fires (R179) -/

/-- The firing of a head up to what follows it: its actions are taken, the cue is FIRED, and its next cue is the head. -/
def State.fireHead (s : State) (l c : Nat) : State :=
  ((s.each (fun t a => t.fireAction (s.list l).acting c a) (s.cue c).chain).setCue c
      { s.cue c with state := .fired }).setList l
    { s.list l with lastFire := s.timer.counter + 1, goPending := false, head := (s.cue c).next }

/-- A firing is that of the head, and the end of the pass where the cue has no next. -/
theorem State.fireCue_eq (s : State) (l c : Nat) :
    s.fireCue l c = if (s.cue c).next.isNone then (s.fireHead l c).endPass l else s.fireHead l c := by
  obtain ⟨new, fired, -⟩ := Fired.each s (s.list l).acting c (s.cue c).chain
  unfold State.fireCue State.fireHead
  dsimp only
  generalize s.each (fun t a => t.fireAction (s.list l).acting c a) (s.cue c).chain = u at fired ⊢
  have timer : u.timer = s.timer := by rw [fired.frame]
  have list : (u.setCue c { s.cue c with state := .fired }).list l = s.list l := fired.list l
  simp only [fired.cue, State.cue_setCue, list, State.setCue_timer, timer]

section
variable (s : State) (l c : Nat)

theorem State.fireHead_cue : (s.fireHead l c).cue c = { s.cue c with state := .fired } := State.cue_setCue _ _ _

theorem State.fireHead_cue_other (y : Nat) (hy : y ≠ c) : (s.fireHead l c).cue y = s.cue y := by
  obtain ⟨new, fired, -⟩ := Fired.each s (s.list l).acting c (s.cue c).chain
  exact (State.cue_setCue_other _ _ _ _ hy).trans (fired.cue y)

theorem State.fireHead_list :
    (s.fireHead l c).list l =
      { s.list l with lastFire := s.timer.counter + 1, goPending := false, head := (s.cue c).next } :=
  State.list_setList _ _ _

theorem State.fireHead_list_other (m : Nat) (hm : m ≠ l) : (s.fireHead l c).list m = s.list m := by
  obtain ⟨new, fired, -⟩ := Fired.each s (s.list l).acting c (s.cue c).chain
  exact (State.list_setList_other _ _ _ _ hm).trans (fired.list m)

theorem State.fireHead_chain : (s.fireHead l c).chain l = s.chain l := by
  refine State.chain_congr l (by rw [s.fireHead_list]) fun y => ?_
  by_cases hy : y = c
  · rw [hy, s.fireHead_cue]
  · rw [s.fireHead_cue_other l c y hy]

end

/-! ### The end of a pass (R182) -/

section
variable (s : State) (l : Nat)

theorem State.endPass_queue : (s.endPass l).queue = s.queue := by
  have queue : (s.armList l).queue = s.queue := by rw [s.armList_frame l]
  unfold State.endPass
  dsimp only
  split
  · exact queue
  · split
    · exact queue
    · rfl

theorem State.endPass_list_other (m : Nat) (hm : m ≠ l) : (s.endPass l).list m = s.list m := by
  have again : (s.newPass l).list m = s.list m :=
    (State.list_setList_other _ _ _ _ hm).trans (s.armList_list l m)
  unfold State.endPass
  dsimp only
  split
  · exact again
  · split
    · exact (State.list_setList_other _ _ _ _ hm).trans again
    · exact State.list_setList_other _ _ _ _ hm

/-- The passes that a pass of loop setting 255, or one with passes remaining, leaves to the next (R182). -/
def CueList.goesOn (d : CueList) (passes : Nat) : Prop :=
  d.loop = 255 ∧ passes = d.passes ∨ d.loop ≠ 255 ∧ 0 < d.passes ∧ passes = d.passes - 1

/-- A new pass arms the list's cues and begins at the first. -/
theorem State.endPass_again (passes : Nat) (h : (s.list l).goesOn passes) :
    (s.endPass l).list l = { s.list l with head := (s.list l).first, passes } ∧
      ∀ y, (s.endPass l).cue y = if y ∈ s.chain l then (s.cue y).armed else s.cue y := by
  have list : (s.newPass l).list l = { s.list l with head := (s.list l).first } := by
    rw [State.newPass, State.list_setList, s.armList_list]
  unfold State.endPass
  rcases h with ⟨loops, rfl⟩ | ⟨counts, left, rfl⟩
  · simp only [if_pos loops]
    exact ⟨list, s.armList_cue l⟩
  · simp only [if_neg counts, if_pos left]
    exact ⟨by rw [State.list_setList, list], s.armList_cue l⟩

theorem State.endPass_ended (hl : (s.list l).loop ≠ 255) (hp : (s.list l).passes = 0) :
    s.endPass l = (s.setList l { s.list l with state := .ended, head := none }).raise .listEnd := by
  simp only [State.endPass, if_neg hl, hp, Nat.lt_irrefl, gt_iff_lt, if_false]

end

/-! ### The evaluation's next turn (R178, R180, R181) -/

theorem exec_cueFire (s : State) (hr : s.device = .running) : exec .cueFire s = .next s.evaluateToFire :=
  congrArg Host.Outcome.next (if_pos hr)

/-- Why a due head does not fire: 16 firings of its list, or want of room (R180, R181). -/
def State.holdsBack (s : State) (ev : Evaluation) (c : Nat) (cause : LateCause) : Prop :=
  (16 ≤ ev.fired ∧ cause = .cap) ∨ (ev.fired < 16 ∧ s.queueRoom < (s.cue c).chain.length ∧ cause = .room)

section
variable (s : State) (ev : Evaluation) (c : Nat) (he : s.work.evaluation = some ev)
  (hh : (s.list ev.list).head = some c) (due : s.headDue ev.list = true)
include he hh due

theorem State.evaluateOnce_fires (hf : ev.fired < 16) (room : (s.cue c).chain.length ≤ s.queueRoom) :
    s.evaluateOnce = ((s.fireCue ev.list c).setEvaluation (some ⟨ev.list, ev.fired + 1⟩), true) := by
  simp [State.evaluateOnce, he, hh, due, Nat.not_le.2 hf, Nat.not_lt.2 room]

theorem State.evaluateOnce_holds (cause : LateCause) (h : s.holdsBack ev c cause) :
    s.evaluateOnce = ((s.holdLate ev.list c cause).setEvaluation ev.after, false) := by
  rcases h with ⟨cap, rfl⟩ | ⟨hf, room, rfl⟩
  · simp [State.evaluateOnce, he, hh, due, cap]
  · simp [State.evaluateOnce, he, hh, due, Nat.not_le.2 hf, room]

end

theorem State.evaluateToFire_fired (s t : State) (h : s.evaluateOnce = (t, true)) : s.evaluateToFire = t.skipIdle := by
  simp [State.evaluateToFire, h]

theorem State.evaluateToFire_stopped (s t : State) (h : s.evaluateOnce = (t, false)) :
    s.evaluateToFire = t.evaluateOnce.1.skipIdle := by
  simp [State.evaluateToFire, h]

theorem State.holdLate_late (s : State) (l c : Nat) (cause : LateCause) (h : (s.cue c).late = true) :
    s.holdLate l c cause = s := if_pos h

theorem State.holdLate_first (s : State) (l c : Nat) (cause : LateCause) (h : (s.cue c).late = false) :
    s.holdLate l c cause =
      ((s.setCue c { s.cue c with late := true }).setList l
        { s.list l with lastLate := some ⟨c, cause, s.timer.counter⟩ }).raise .cueLate :=
  if_neg (by simp [h])

/-- Settles O49: the due test branch by branch; then the turn fires the head, and the entries are those of its actions,
which nothing after them adds to. -/
theorem cueFiringCompletes : Obligations.CueFiringCompletes := by
  refine ⟨State.headDue_iff, fun s ev c hr he hh due hf room => ⟨?_, fun n hn => ?_, ?_⟩⟩
  · rw [exec_cueFire s hr, s.evaluateToFire_fired _ (s.evaluateOnce_fires ev c he hh due hf room)]
  · rw [s.fireCue_eq, hn]
    exact ⟨s.fireHead_cue _ _, by rw [if_neg (by simp), s.fireHead_list, hn]⟩
  · obtain ⟨new, fired, bodies⟩ := Fired.each s (s.list ev.list).acting c (s.cue c).chain
    have queue : (s.fireCue ev.list c).queue = (s.fireHead ev.list c).queue := by
      rw [s.fireCue_eq]
      split
      · exact State.endPass_queue _ _
      · rfl
    refine ⟨new, queue.trans fired.queue, fired.length, fun e h => ?_, fun j e h => ?_, bodies⟩
    · obtain ⟨j, hj⟩ := List.mem_iff_getElem?.1 h
      obtain ⟨source, origin, effective, -⟩ := fired.entries j e hj
      exact ⟨effective, origin, source⟩
    · obtain ⟨-, -, -, arrival⟩ := fired.entries j e h
      exact arrival

/-- Settles O50: a firing without a next cue ends the pass of the state that the firing of its head leaves; and a turn at
a due head that is held back marks it late, or has done so before. -/
theorem passesEndAndLateHeadsWait : Obligations.PassesEndAndLateHeadsWait := by
  refine ⟨?_, ?_⟩
  · intro s l c hn d t again
    have ends : t = (s.fireHead l c).endPass l := by
      show s.fireCue l c = _
      rw [s.fireCue_eq, hn]
      rfl
    have list : (s.fireHead l c).list l = { d with lastFire := s.timer.counter + 1, goPending := false, head := none } := by
      rw [s.fireHead_list, hn]
    have newPass (passes : Nat) (h : d.goesOn passes) : again passes := by
      obtain ⟨descriptor, cues⟩ := (s.fireHead l c).endPass_again l passes (by rw [list]; exact h)
      rw [← ends, s.fireHead_chain] at cues
      rw [← ends, list] at descriptor
      refine ⟨descriptor, fun y hy => ?_, fun y hy hc => ?_⟩
      · rw [cues, if_pos hy]
        by_cases hc : y = c
        · rw [hc, s.fireHead_cue]
          rfl
        · rw [s.fireHead_cue_other l c y hc]
          rfl
      · rw [cues, if_neg hy, s.fireHead_cue_other l c y hc]
    refine ⟨fun loops => newPass _ (.inl ⟨loops, rfl⟩), fun counts left => newPass _ (.inr ⟨counts, left, rfl⟩),
      fun counts last => ?_, fun m hm => ?_⟩
    · rw [ends, (s.fireHead l c).endPass_ended l (by rw [list]; exact counts) (by rw [list]; exact last)]
      refine ⟨?_, s.fireHead_cue l c, s.fireHead_cue_other l c, ?_⟩
      · exact (State.list_setList _ _ _).trans (by rw [list])
      · rw [State.event_raise]
        rfl
    · rw [ends, State.endPass_list_other _ _ _ hm, s.fireHead_list_other l c m hm]
  · intro s ev c cause hr he hh due back u held
    have once := s.evaluateOnce_holds ev c he hh due cause back
    refine ⟨fun late => ?_, fun first => ?_, ?_⟩
    · rw [once, s.holdLate_late _ _ _ late]
      rfl
    · rw [once, s.holdLate_first _ _ _ first]
      rfl
    · rw [exec_cueFire s hr, s.evaluateToFire_stopped _ once, once]

end Sys2Proof.Machine
end

section
/-! PROOF. The event set and ATTN# (R190, R193), the frame checks in their order (R186), and the link's own commands
(R185, R191, R192, R194). -/

namespace Sys2Proof.Machine

/-! ### Events and ATTN# (R190, R193) -/

theorem EventKind.number_lt (k : EventKind) : k.number < 13 := by
  cases k <;> decide

theorem State.attention_iff (s : State) (hd : s.device ≠ .resetLow) :
    s.attention = true ↔ ∃ j < 13, (s.event j).pending = true ∧ s.mask.getLsbD j = true := by
  simp [State.attention, hd]

theorem State.attention_resetLow (s : State) (hd : s.device = .resetLow) : s.attention = false := by
  simp [State.attention, hd]

/-- Settles O16, from what a raising leaves of each kind. -/
theorem attentionFollowsFlagsAndMask : Obligations.AttentionFollowsFlagsAndMask := by
  intro s k
  have own : (s.raise k).event k.number = ⟨true, saturate 255 (s.event k.number).count⟩ := by
    rw [State.event_raise, if_pos rfl]
  refine ⟨s.attention_iff, s.attention_resetLow, by rw [own], fun hc => ?_, fun j hj => ?_, fun hd hm => ?_⟩
  · rw [own]
    exact saturate_eq_min ..
  · rw [State.event_raise, if_neg hj]
  · rw [State.attention_iff _ (by simpa using hd)]
    exact ⟨k.number, k.number_lt, by rw [own], by simpa using hm⟩

/-! ### The checks of a frame, in their order (R186) -/

/-- Check 1 on a part whose RESET# is not low: BUSY, with the reload of a source 0..4 unless the frame is over-long. -/
theorem State.takeFrame_busy (s : State) (h : Header) (i : Instr) (hd : s.device ≠ .resetLow) (hb : s.busy = true) :
    s.takeFrame h i =
      State.resume (s.endTransaction h.time)
        ((if frameLength h i ≤ 1100 ∧ h.src ≤ 4 then s.met h else s.endTransaction h.time).replyWith
          (i.code?.getD 0) .busy false []) := by
  have busy : (s.endTransaction h.time).busy = true := by simpa [State.busy] using hb
  unfold State.takeFrame State.judgeFrame State.busyReload
  rw [if_neg hd]
  dsimp only
  rw [if_pos busy]
  by_cases short : frameLength h i ≤ 1100
  · simp [short, Nat.not_lt.2 short, State.met]
  · simp [short, Nat.lt_of_not_le short]

section
variable (s : State) (h : Header) (i : Instr) (hd : s.device = .running) (hc : s.softClear = .none)
include hd hc

/-- A running part judges a frame by its length first (R186, check 2). -/
theorem State.takeFrame_overlong (long : 1100 < frameLength h i) :
    s.takeFrame h i = (s.endTransaction h.time).replyWith (i.code?.getD 0) .badLength false [] := by
  simp [State.takeFrame, hd, State.judgeFrame, s.endTransaction_busy h.time hd hc, long, State.resume_self]

/-- Of a frame within its length it judges the source next (R186, check 3). -/
theorem State.takeFrame_unknownSource (short : frameLength h i ≤ 1100) (far : 4 < h.src) :
    s.takeFrame h i = (s.endTransaction h.time).replyWith (i.code?.getD 0) .range false [] := by
  simp [State.takeFrame, hd, State.judgeFrame, s.endTransaction_busy h.time hd hc, Nat.not_lt.2 short, far,
    State.resume_self]

end

/-- A received frame without a modifier problem whose body has not the length its fields ask for (R186, check 7). -/
theorem State.takeFrame_mismatched (s : State) (h : Header) (i : Instr) (r : Received s h i)
    (hm : modifierStatus i h (i.code?.getD 0) = none) (hb : i.bodyLengthMatches = false) :
    s.takeFrame h i = s.refused h i .range := by
  obtain ⟨running, clear, short, known⟩ := r
  unfold State.takeFrame State.judgeFrame State.judgeCommand
  rw [hm]
  simp [running, s.endTransaction_busy h.time running clear, Nat.not_lt.2 short, Nat.not_lt.2 known, hb,
    State.refused, State.met]

/-- Settles O11: one equation of `State.takeFrame` for each check. -/
theorem framesThatFailACheckAreAnswered : Obligations.FramesThatFailACheckAreAnswered := by
  intro i h s hh
  rw [exec_of_header i h s hh]
  refine ⟨fun low => ?_, fun hd hb short known => ?_, fun hd hb fails => ?_, fun hd hc long => ?_,
    fun hd hc short far => ?_, fun st r hm => ?_, fun r hm hb => ?_⟩
  · rw [State.takeFrame, if_pos low]
  · rw [s.takeFrame_busy h i hd hb, if_pos ⟨short, known⟩, State.refused]
  · rw [s.takeFrame_busy h i hd hb, if_neg (by omega), State.resume_self]
  · rw [s.takeFrame_overlong h i hd hc long]
  · rw [s.takeFrame_unknownSource h i hd hc short far]
  · rw [← exec_of_header i h s hh]
    exact exec_modifier_refused s h i st hh r hm
  · rw [s.takeFrame_mismatched h i r hm hb]

/-! ### NOP, READ_EVENTS and SOFT_CLEAR (R185, R191, R194) -/

/-- Settles O13: none of the three awaits frame work, so each meets the part right behind its reload. -/
theorem nopReadEventsAndSoftClearComplete : Obligations.NopReadEventsAndSoftClearComplete := by
  intro s h
  refine ⟨fun a => ?_, fun a => ?_, fun a safety => ?_, fun a other => ?_⟩
  · exact exec_accepted s _ h (.nop h) false _ rfl a rfl
  · refine exec_accepted s _ h (.readEvents h) false _ rfl a ?_
    show Verdict.accept { s.met h with events := .empty } false (s.met h).eventBytes = _
    exact congrArg (Verdict.accept _ false) (by rw [State.eventBytes, State.met_mask, State.met_timer])
  · exact exec_accepted s _ h (.softClear h) false _ rfl a (if_neg (Decidable.not_not.2 safety))
  · exact exec_refused s h (.softClear h) .notPermitted rfl a rfl (if_pos other)

/-! ### SET_EVENT_MASK (R192) -/

/-- The mask, the events and the state of the device are in `t` as they are in `s`: what ATTN# is formed from. -/
structure SameAttention (s t : State) : Prop where
  events : t.events = s.events
  mask : t.mask = s.mask
  device : t.device = s.device

theorem SameAttention.refl (s : State) : SameAttention s s := ⟨rfl, rfl, rfl⟩

theorem SameAttention.trans {s t u : State} (h : SameAttention s t) (g : SameAttention t u) : SameAttention s u :=
  ⟨g.events.trans h.events, g.mask.trans h.mask, g.device.trans h.device⟩

theorem SameAttention.event {s t : State} (h : SameAttention s t) (k : Nat) : t.event k = s.event k := by
  rw [State.event, h.events]
  rfl

/-- A tick that a frame takes with it loses no source: the counter it takes is not 1 (log 21). -/
theorem SameAttention.takeLoadedTick (old s : State) (n : Nat) : SameAttention s (State.takeLoadedTick old s n) := by
  unfold State.takeLoadedTick
  split
  · rename_i loaded
    obtain ⟨-, -, above⟩ := loaded
    rw [State.takeTick_loaded s n above]
    exact ⟨rfl, rfl, rfl⟩
  · exact .refl s

theorem SameAttention.takeLoadedTicks (old s : State) : SameAttention s (State.takeLoadedTicks old s) := by
  have each (l : List Nat) (u : State) : SameAttention u (u.each (State.takeLoadedTick old) l) := by
    induction l generalizing u with
    | nil => exact .refl u
    | cons n ns ih => exact (takeLoadedTick old u n).trans (ih _)
  exact each _ s

theorem SameAttention.advance (s : State) : SameAttention s s.advance := by
  have frame := (Advanced.advance s).frame
  exact ⟨(congrArg State.events frame).trans rfl, (congrArg State.mask frame).trans rfl,
    (congrArg State.device frame).trans rfl⟩

/-- What goes on behind a frame raises no event and leaves the mask. -/
theorem SameAttention.resume (old s : State) : SameAttention s (State.resume old s) := by
  have ticks := takeLoadedTicks old s
  unfold State.resume
  dsimp only
  split
  · exact ticks.trans (advance _)
  · exact ticks

theorem SameAttention.accepted (s : State) (h : Header) (i : Instr) (t : State) (clamped : Bool) (fields : List Byte) :
    SameAttention t (s.accepted h i t clamped fields) := by
  have reply : SameAttention t (t.replyWith (i.code?.getD 0) .ok clamped fields) := ⟨rfl, rfl, rfl⟩
  exact reply.trans (resume _ _)

/-- A command whose code takes no modifier is refused for having one (R187, check 2). -/
theorem modifierProblem_of_none_allowed (code : Byte) (mods : List Modifier) (bare : allowedModifiers code = []) :
    modifierProblem code mods = if mods = [] then none else some .modifierInvalid := by
  cases mods <;> simp [modifierProblem, modifiersClash, bare]

theorem modifierStatus_setEventMask (h : Header) (m : Half) :
    modifierStatus (.setEventMask h m) h ((Instr.setEventMask h m).code?.getD 0) =
      if h.mods = [] then none else some .modifierInvalid :=
  modifierProblem_of_none_allowed 0x03 h.mods rfl

/-- A mask has a bit above bit 12 exactly where it is at least 8192. -/
theorem mask_range (m : Half) :
    8192 ≤ m.toNat ↔ (m.getLsbD 13 || m.getLsbD 14 || m.getLsbD 15) = true := by
  have bound := m.isLt
  simp only [BitVec.getLsbD, Nat.testBit_eq_decide_div_mod_eq, Bool.or_eq_true, decide_eq_true_eq]
  omega

/-- SET_EVENT_MASK without modifiers is admitted to its own checks. -/
theorem setEventMask_admitted (s : State) (h : Header) (m : Half) (r : Received s h (.setEventMask h m))
    (hm : h.mods = []) : Admitted s h (.setEventMask h m) := by
  obtain ⟨running, clear, short, known⟩ := r
  exact ⟨running, clear, short, known, by rw [modifierStatus_setEventMask, if_pos hm], rfl⟩

theorem setEventMaskOwn_forbidden (h : Header) (m : Half) (s : State) (far : 2 ≤ h.src) :
    setEventMaskOwn h m s = .refuse .notPermitted := if_pos (h.not_configures far)

/-- What SET_EVENT_MASK answers to a source that configures. -/
theorem setEventMaskOwn_permitted (h : Header) (m : Half) (s : State) (near : h.src ≤ 1) :
    setEventMaskOwn h m s =
      if m.getLsbD 13 || m.getLsbD 14 || m.getLsbD 15 then .refuse .range
      else .accept { s with mask := m } false (be16 m) := by
  simp [setEventMaskOwn, h.configures_of_le near, mask_range]

/-- Settles O15: the checks of SET_EVENT_MASK's own, and an acceptance behind which nothing raises an event. -/
theorem setEventMaskStoresTheMask : Obligations.SetEventMaskStoresTheMask := by
  intro s h m
  refine ⟨rfl, fun r hm => ?_, fun r hm => ?_⟩
  · exact exec_modifier_refused s h _ _ rfl r (by rw [modifierStatus_setEventMask, if_neg hm])
  have a := setEventMask_admitted s h m r hm
  refine ⟨fun far => ?_, fun near above => ?_, fun near within => ?_⟩
  · exact exec_refused s h _ _ rfl a rfl (setEventMaskOwn_forbidden h m _ far)
  · exact exec_refused s h _ _ rfl a rfl ((setEventMaskOwn_permitted h m _ near).trans (if_pos above))
  · have own := (setEventMaskOwn_permitted h m (s.met h) near).trans (if_neg (ne_true_of_eq_false within))
    have same := SameAttention.accepted s h (.setEventMask h m) { s.met h with mask := m } false (be16 m)
    refine ⟨_, rfl, exec_accepted s _ h _ false _ rfl a own, same.mask, same.event, ?_⟩
    obtain ⟨running, -⟩ := r
    rw [State.attention, same.device.trans ((s.met_device h).trans running), same.mask]
    rfl

end Sys2Proof.Machine
end

section
/-! PROOF. The bytes of a command frame (11.8, R188): a frame splits into the pieces it was put together from, a body
decodes to the row it was encoded from, and clocked bytes do what the row they spell does (R186, log 3). -/

namespace Sys2Proof

/-! ### Bodies whose length their fields give (R188, log 9) -/

theorem readTakeBody_encode (b : TakeBody) :
    readTakeBody (be16 b.name ++ b.selector.encode ++ [b.form] ++ be16 b.fadeIn ++ be16 b.fadeOut ++ [b.policy] ++
      b.targets.flatMap be16) = some b := by
  simp [readTakeBody, be16, readSelector_append, readHalves_encode, word16_be16]

/-- A FIRST part of LOAD_PLATE reads back with the plate's fields, a NEXT part without them (R146). -/
theorem readLoadPlate_encode (b : LoadPlateBody) (part : (b.first.isSome == (b.part == 0)) = true) :
    readLoadPlate ([b.plate, b.part, b.last] ++ (b.first.map PlateFirst.encode).getD [] ++
      b.descriptors.flatMap DescriptorField.encode) = some b := by
  obtain ⟨plate, code, last, fields, descriptors⟩ := b
  have back := readDescriptors_encode descriptors
  cases fields with
  | none =>
    have next : code ≠ 0 := by simpa using part
    show (if code = 0 then _ else _) = _
    rw [if_neg next]
    exact congrArg (Option.map _) back
  | some f =>
    have first : code = 0 := by simpa using part
    simp [readLoadPlate, first, PlateFirst.encode, be16, word16_be16, back]

/-- A NEW part of LOAD_CUE reads back with its trigger, an APPEND part without one (R170). -/
theorem readLoadCue_encode (b : LoadCueBody) (mode : (b.trigger.isSome == (b.mode == 0)) = true)
    (trigger : b.trigger.all TriggerField.wf = true) (actions : actionsWf b.actions = true) :
    readLoadCue (be16 b.cue ++ [b.list, b.mode] ++ (b.trigger.map TriggerField.encode).getD [] ++
      b.actions.flatMap ActionField.encode) = some b := by
  obtain ⟨cue, list, code, kind, acts⟩ := b
  have back : readActions _ (acts.flatMap ActionField.encode) = some acts := readActions_encode acts actions _ (Nat.le_refl _)
  cases kind with
  | none =>
    have append : code ≠ 0 := by simpa using mode
    simp only [readLoadCue, be16, List.cons_append, List.nil_append, Option.map_none, Option.getD_none, word16_be16,
      if_neg append, back, Option.map_some]
  | some t =>
    have new : code = 0 := by simpa using mode
    simp only [readLoadCue, be16, List.cons_append, List.nil_append, Option.map_some, Option.getD_some, word16_be16,
      if_pos new, readTrigger_append t _ trigger, back]

/-! ### Every body (R186, check 7) -/

section
variable (h : Header) (bs : List Byte)

theorem decodeBody_readContribution (a : ReadAddressField) (rest : List Byte)
    (address : readReadAddress bs = some (a, rest)) :
    decodeBody h 0x25 bs = (readWindow22 rest).map (.readContribution h a) := by
  show (match readReadAddress bs with
    | some (a, rest) => (readWindow22 rest).map (Instr.readContribution h a)
    | none => none) = _
  rw [address]

theorem decodeBody_forceSet (x : SelectorField) (m v1 v0 : Byte) (selector : readSelector bs = some (x, [m, v1, v0])) :
    decodeBody h 0x30 bs = some (.forceSet h x m (word16 v1 v0)) := by
  show (match readSelector bs with
    | some (x, [m, v1, v0]) => some (Instr.forceSet h x m (word16 v1 v0))
    | _ => none) = _
  rw [selector]

theorem decodeBody_forceClear (x : SelectorField) (selector : readSelector bs = some (x, [])) :
    decodeBody h 0x31 bs = some (.forceClear h x) := by
  show (match readSelector bs with
    | some (x, []) => some (Instr.forceClear h x)
    | _ => none) = _
  rw [selector]

end

/-- Every well-formed body decodes to its row: the bodies with parts of several layouts by the reader of that part, the
others field by field. -/
theorem decodeBody_bodyBytes (i : Instr) (h : Header) (c : Byte) (hh : i.header? = some h) (hc : i.code? = some c)
    (wf : i.bodyWf = true) : decodeBody h c i.bodyBytes = some i := by
  cases i <;> cases hh <;> cases hc
  case bindPoint p b =>
    show (readBinding b.encode).map (Instr.bindPoint h (word16 _ _)) = _
    rw [readBinding_encode b wf, word16_be16]
    rfl
  case loadCurve k ks => exact congrArg (Option.map (Instr.loadCurve h k)) (readHalves_encode ks)
  case take b => exact congrArg (Option.map (Instr.take h)) (readTakeBody_encode b)
  case release a => exact congrArg (Option.map (Instr.release h)) (readAddress_encode a wf)
  case pause a => exact congrArg (Option.map (Instr.pause h)) (readAddress_encode a wf)
  case resume a => exact congrArg (Option.map (Instr.resume h)) (readAddress_encode a wf)
  case readContribution a w =>
    simp only [Instr.bodyWf, Bool.and_eq_true, Bool.not_eq_true'] at wf
    obtain ⟨⟨address, window⟩, last⟩ := wf
    have closes : a.closes = true → window22 w = [] := fun closed => by
      have absent : w = none := by simpa [closed] using last
      rw [absent, window22]
    exact (decodeBody_readContribution h _ a _ (readReadAddress_append a _ address closes)).trans
      (congrArg (Option.map _) (readWindow22_encode w window))
  case flush t a =>
    cases a with
    | none => rfl
    | some n => exact congrArg (fun v => some (Instr.flush h t (some v))) (word32_be32 n)
  case forceSet x m v =>
    have selector : readSelector (x.encode ++ [m] ++ be16 v) = some (x, [m] ++ be16 v) := by
      rw [List.append_assoc, readSelector_append]
    refine (decodeBody_forceSet h _ x m _ _ selector).trans ?_
    rw [word16_be16]
  case forceClear x => exact decodeBody_forceClear h _ x (readSelector_encode x)
  case readOverrides w => exact congrArg (Option.map (Instr.readOverrides h)) (readWindow22_encode w wf)
  case loadPlate b => exact congrArg (Option.map (Instr.loadPlate h)) (readLoadPlate_encode b wf)
  case readPlate p k w => exact congrArg (Option.map (Instr.readPlate h p k)) (readWindow21_encode w wf)
  case loadCue b =>
    simp only [Instr.bodyWf, Bool.and_eq_true] at wf
    obtain ⟨⟨mode, trigger⟩, actions⟩ := wf
    exact congrArg (Option.map (Instr.loadCue h)) (readLoadCue_encode b mode trigger actions)
  case linkCue l k p =>
    show (readPosition p.encode).map (Instr.linkCue h l (word16 _ _)) = _
    rw [readPosition_encode p wf, word16_be16]
    rfl
  case readCue k w =>
    show (readWindow11 (window11 w)).map (Instr.readCue h (word16 _ _)) = _
    rw [readWindow11_encode w wf, word16_be16]
    rfl
  all_goals
    show some _ = some _
    simp only [word16_be16, word32_be32]

/-! ### The frame around the body (11.8; R186, check 2) -/

/-- The modifier entries read back from their bytes, and what follows them stays. -/
theorem readModifiers_append (ms : List Modifier) (bs : List Byte) :
    readModifiers ms.length (ms.flatMap Modifier.encode ++ bs) = some (ms, bs) := by
  induction ms with
  | nil => rfl
  | cons m ms ih =>
    simp only [List.flatMap_cons, Modifier.encode, be32, List.length_cons, List.cons_append, List.nil_append,
      readModifiers, ih, Option.map_some, word32_be32]

/-- The bytes of a frame of a code, a source, modifier entries and a body (11.8). -/
def RawFrame.encode (f : RawFrame) : List Byte :=
  [f.code, f.source, BitVec.ofNat 8 f.mods.length] ++ be16 (BitVec.ofNat 16 f.body.length) ++
    f.mods.flatMap Modifier.encode ++ f.body

/-- The frame of a structured row holds the row's code, its header and its body. -/
theorem encodeFrame_eq (i : Instr) (h : Header) (c : Byte) (hh : i.header? = some h) (hc : i.code? = some c) :
    encodeFrame i = some (RawFrame.encode ⟨c, h.source, h.mods, i.bodyBytes⟩) := by
  rw [encodeFrame, hh, hc]
  rfl

/-- A frame within 1,100 bytes splits into its pieces, also with bytes 0 clocked behind it. -/
theorem splitFrame_encode (f : RawFrame) (short : 5 + 5 * f.mods.length + f.body.length ≤ 1100) (extra : Nat) :
    splitFrame (f.encode ++ List.replicate extra 0) = some f := by
  obtain ⟨c, source, mods, body⟩ := f
  dsimp only at short
  have count : (BitVec.ofNat 8 mods.length).toNat = mods.length := by
    rw [BitVec.toNat_ofNat]
    omega
  have length : (BitVec.ofNat 16 body.length).toNat = body.length := by
    rw [BitVec.toNat_ofNat]
    omega
  simp only [RawFrame.encode, be16, List.cons_append, List.nil_append, List.append_assoc, splitFrame, word16_be16,
    count, length, readModifiers_append]
  simp [Nat.not_lt.2 short]

/-- A row with a header has a code, and its code is one of the command summary's (11.7). -/
theorem Instr.code_of_header (i : Instr) (h : Header) (hh : i.header? = some h) :
    ∃ c, i.code? = some c ∧ commandCodes.contains c = true := by
  cases i <;> cases hh <;> exact ⟨_, rfl, rfl⟩

theorem Instr.bodyWf_of_wf (i : Instr) (wf : i.wf = true) : i.bodyWf = true := by
  simp only [Instr.wf, Bool.and_eq_true] at wf
  obtain ⟨-, body⟩ := wf
  exact body

end Sys2Proof

namespace Sys2Proof.Machine

/-- Settles O7: the frame splits into its pieces, and the body decodes to its row. -/
theorem framesAndRowsRoundTrip : Obligations.FramesAndRowsRoundTrip := by
  intro i h hh wf short
  obtain ⟨c, hc, -⟩ := i.code_of_header h hh
  have split := splitFrame_encode ⟨c, h.source, h.mods, i.bodyBytes⟩ short 0
  rw [List.replicate_zero, List.append_nil] at split
  exact ⟨c, _, hc, encodeFrame_eq i h c hh hc, split, decodeBody_bodyBytes i h c hh hc (i.bodyWf_of_wf wf)⟩

/-! ### Clocked bytes (R186, log 3) -/

/-- A raw frame that decodes to a row is judged as that row is. -/
theorem State.judgeRaw_decoded (s : State) (f : RawFrame) (i : Instr) (time : Nat)
    (known : commandCodes.contains f.code = true)
    (decoded : decodeBody ⟨time, f.source, f.mods⟩ f.code f.body = some i)
    (short : frameLength ⟨time, f.source, f.mods⟩ i ≤ 1100) :
    s.judgeRaw f time = s.judgeFrame f.code ⟨time, f.source, f.mods⟩ i := by
  simp only [State.judgeRaw, State.judgeFrame, known, decoded, Nat.not_lt.2 short, gt_iff_lt, if_false, Bool.not_true,
    Bool.false_eq_true]

/-- Settles O8: the bytes split into the frame's pieces, whose body decodes to the row, which is then judged as ever. -/
theorem clockedBytesAndRowsAgree : Obligations.ClockedBytesAndRowsAgree := by
  intro i h bs extra s hh wf short encoded
  obtain ⟨c, hc, known⟩ := i.code_of_header h hh
  have bytes : bs = RawFrame.encode ⟨c, h.source, h.mods, i.bodyBytes⟩ :=
    Option.some.inj (encoded.symm.trans (encodeFrame_eq i h c hh hc))
  have split := splitFrame_encode ⟨c, h.source, h.mods, i.bodyBytes⟩ short extra
  rw [← bytes] at split
  have judged (u : State) := u.judgeRaw_decoded ⟨c, h.source, h.mods, i.bodyBytes⟩ i h.time known
    (decodeBody_bodyBytes i h c hh hc (i.bodyWf_of_wf wf)) short
  rw [exec_of_header i h s hh]
  refine congrArg Host.Outcome.next ?_
  simp only [State.takeBytes, State.takeFrame, split, judged, hc]
  rfl

end Sys2Proof.Machine
end

section
/-! PROOF. What every row keeps: a step runs the front row (O1), each row answers a next state with the same commands
waiting (O2), and the numbered stores stay canonical (O6). The shared operations are `Kept`'s; here stand the
commands' own checks, the frame around them, and the event rows. -/

namespace Sys2Proof.Machine

/-- From `s` to `t` the same commands wait, and stores that were canonical are canonical: what every row keeps. -/
structure KeptForm (s t : State) : Prop where
  pending : t.pending = s.pending
  canonical : Canonical s → Canonical t

theorem KeptForm.refl (s : State) : KeptForm s s := ⟨rfl, id⟩

theorem KeptForm.trans {s t u : State} (h : KeptForm s t) (g : KeptForm t u) : KeptForm s u :=
  ⟨g.pending.trans h.pending, g.canonical ∘ h.canonical⟩

theorem KeptForm.ite {c : Prop} [Decidable c] {s t u : State} (h : KeptForm s t) (g : KeptForm s u) :
    KeptForm s (if c then t else u) := by
  split
  · exact h
  · exact g

theorem Kept.form {s t : State} (h : Kept s t) : KeptForm s t := ⟨h.pending, h.canonical⟩
theorem KeptRoom.form {s t : State} (h : KeptRoom s t) : KeptForm s t := ⟨h.pending, h.canonical⟩
theorem KeptBut.form {n : Nat} {s t : State} (h : KeptBut n s t) : KeptForm s t := ⟨h.pending, h.canonical⟩
theorem KeptTimed.form {s t : State} (h : KeptTimed s t) : KeptForm s t := ⟨h.pending, h.canonical⟩

/-! ### Verdicts (R186, check 8) -/

/-- A verdict on `s` that refuses, or accepts with a state that keeps the form of `s`. -/
inductive Verdict.Keeps (s : State) : Verdict → Prop
  | refuse (st : Status) : Keeps s (.refuse st)
  | accept {t : State} {clamped : Bool} {fields : List Byte} (h : KeptForm s t) : Keeps s (.accept t clamped fields)

namespace Verdict.Keeps

theorem ite {c : Prop} [Decidable c] {s : State} {v w : Verdict} (h : v.Keeps s) (g : w.Keeps s) :
    (if c then v else w).Keeps s := by
  split
  · exact h
  · exact g

/-- A read accepts the state as it stands. -/
theorem read {s : State} {clamped : Bool} {fields : List Byte} : (Verdict.accept s clamped fields).Keeps s :=
  .accept (.refl s)

/-- A check that only refuses. -/
theorem check {c : Prop} [Decidable c] {s : State} {st : Status} {v : Verdict} (h : v.Keeps s) :
    (if c then .refuse st else v).Keeps s := .ite (.refuse st) h

theorem queueCommand (s : State) (h : Header) (eff : Word) (c : Bool) (b : EntryBody) (a : Option Handle) :
    (queueCommand s h eff c b a).Keeps s :=
  .check (.accept (KeptBut.enqueue s _ _ _ _).form)

/-- The entry of a command whose effective frame is in range (R82, R83). -/
theorem queueEffective (s : State) (h : Header) (b : EntryBody) (frame : Option (Word × Bool)) :
    (match frame with
      | none => .refuse .range
      | some (eff, clamped) => Machine.queueCommand s h eff clamped b none : Verdict).Keeps s := by
  split
  · exact .refuse _
  · exact queueCommand ..

/-! ### Commands that only read -/

variable (s : State) (h : Header)

theorem readPoint (p : Half) : (readPointOwn p s).Keeps s := .check .read

theorem readGroup (g : Byte) : (readGroupOwn g s).Keeps s := .check .read

theorem readCurve (c : Byte) : (readCurveOwn c s).Keeps s := .check .read

theorem readQueue (f c : Byte) : (readQueueOwn f c s).Keeps s := .check .read

theorem readOverrides (w : Option Window) : (readOverridesOwn w s).Keeps s := .check .read

theorem readContribution (a : ReadAddressField) (w : Option Window) : (readContributionOwn a w s).Keeps s := by
  unfold readContributionOwn
  split
  · exact .refuse _
  · exact .refuse _
  · split
    · exact .refuse _
    · exact .read
    · exact .read
    · exact .ite .read (.refuse _)

theorem readCue (c : Half) (w : Option Window) : (readCueOwn c w s).Keeps s := by
  refine .check ?_
  split
  · exact .read
  · exact .check (.check .read)

theorem readList (l : Byte) : (readListOwn l s).Keeps s := by
  unfold readListOwn
  split
  · exact .refuse _
  · exact .read

/-! ### Reads with a clear option -/

theorem readSource (t c : Byte) : (readSourceOwn h t c s).Keeps s := by
  unfold readSourceOwn
  split
  · exact .refuse _
  · exact .check (.check (.accept (.ite (Kept.setSource _ _ _).form (.refl s))))

theorem readLine (l c : Byte) : (readLineOwn h l c s).Keeps s := by
  unfold readLineOwn
  split
  · exact .refuse _
  · exact .check (.check (.accept (.ite (Kept.setLine _ _ _).form (.refl s))))

theorem readInput (i c : Byte) : (readInputOwn h i c s).Keeps s := by
  unfold readInputOwn
  split
  · exact .refuse _
  · exact .check (.check (.accept (.ite (Kept.setInput _ _ _).form (.refl s))))

theorem readTile (t c : Byte) : (readTileOwn h t c s).Keeps s := by
  unfold readTileOwn
  split
  · exact .refuse _
  · exact .check (.check (.accept (.ite (Kept.setTile _ _ _).form (.refl s))))

theorem readLink (l c : Byte) : (readLinkOwn h l c s).Keeps s := by
  unfold readLinkOwn
  split
  · exact .refuse _
  · exact .check (.check (.accept (.ite (Kept.setLink _ _ _).form (.refl s))))

theorem readPlate (p c : Byte) (w : Option Window) : (readPlateOwn h p c w s).Keeps s := by
  unfold readPlateOwn
  split
  · exact .refuse _
  · exact .check (.check (.check (.accept (.ite (Kept.setPlate _ _ _).form (.refl s)))))

/-! ### Frame-applied commands at arrival -/

theorem setPoint (b : SetPointBody) : (setPointArrival h b s).Keeps s := by
  refine .check ?_
  split
  · exact queueCommand ..
  · exact .refuse _

theorem bindPoint (p : Half) (b : BindingField) : (bindPointArrival h p b s).Keeps s := by
  refine .check (.check ?_)
  split
  · exact queueCommand ..
  · exact .refuse _

theorem loadCurve (c : Byte) (ks : List Half) : (loadCurveArrival h c ks s).Keeps s := by
  refine .check ?_
  split
  · exact .refuse _
  · exact .check (.check (queueCommand ..))

theorem take (b : TakeBody) : (takeArrival h b s).Keeps s := by
  unfold takeArrival
  dsimp only
  split
  · refine .check (.check (.check (.check ?_)))
    split
    · exact .refuse _
    · exact .refuse _
    · exact .accept (KeptBut.reserve ..).form
  · exact .refuse _

theorem release (a : AddressField) : (releaseArrival h a s).Keeps s := by
  unfold releaseArrival
  split
  · exact queueCommand ..
  · exact .refuse _

theorem releaseSource (t : Byte) : (releaseSourceArrival h t s).Keeps s := by
  refine .check (.check ?_)
  split
  · exact queueCommand ..
  · exact .refuse _

theorem pause (a : AddressField) : (pauseArrival h a s).Keeps s := by
  unfold pauseArrival
  split
  · exact queueCommand ..
  · exact .refuse _

theorem resume (a : AddressField) : (resumeArrival h a s).Keeps s := by
  unfold resumeArrival
  split
  · exact queueCommand ..
  · exact .refuse _

theorem forceSet (x : SelectorField) (m : Byte) (v : Half) : (forceSetArrival h x m v s).Keeps s := by
  refine .check ?_
  split
  · exact .refuse _
  · exact .check (.check (queueEffective ..))

theorem forceClear (x : SelectorField) : (forceClearArrival h x s).Keeps s :=
  .check (.check (queueEffective ..))

theorem freeze (g : Byte) : (freezeArrival h g s).Keeps s :=
  .check (queueEffective ..)

theorem thaw (g : Byte) : (thawArrival h g s).Keeps s :=
  .check (queueEffective ..)

theorem masterSet (m : Byte) (t f : Half) : (masterSetArrival h m t f s).Keeps s := by
  refine .check (.check ?_)
  split
  · exact queueCommand ..
  · exact .refuse _

theorem setWorklightLevel (v : Half) : (setWorklightLevelArrival h v s).Keeps s :=
  .check (queueEffective ..)

theorem platePlay (p : Byte) : (platePlayArrival h p s).Keeps s :=
  .check (queueEffective ..)

theorem plateStop (p : Byte) : (plateStopArrival h p s).Keeps s :=
  .check (queueEffective ..)

theorem setTile (b : SetTileBody) : (setTileArrival h b s).Keeps s := by
  refine .check ?_
  split
  · exact queueCommand ..
  · exact .refuse _

/-! ### Commands with an immediate effect -/

theorem readEvents : (readEventsOwn s).Keeps s := .accept ⟨rfl, fun c => { c with events := rfl }⟩

theorem setEventMask (m : Half) : (setEventMaskOwn h m s).Keeps s :=
  .check (.check (.accept ⟨rfl, fun c => { c with }⟩))

theorem softClear : (softClearOwn h s).Keeps s := .check (.accept (Kept.beginSoftClear s).form)

theorem setTiming (r e : Byte) (l : Half) : (setTimingOwn h r e l s).Keeps s := by
  refine .check ?_
  split
  · exact .refuse _
  · exact .check (.accept (KeptTimed.applyTiming ..).form)

theorem setFrame (v : Word) : (setFrameOwn h v s).Keeps s := .check (.accept (KeptTimed.setTimer ..).form)

theorem defineGroup (b : DefineGroupBody) : (defineGroupOwn h b s).Keeps s := by
  refine .check (.check (.check ?_))
  split
  · exact .refuse _
  · exact .check (.accept ⟨rfl, fun c => { c with groups := Table.set_wf _ _ _ _ c.groups }⟩)

theorem setSource (b : SetSourceBody) : (setSourceOwn h b s).Keeps s := by
  refine .check ?_
  split
  · exact .refuse _
  · exact .check (.check (.check (.check (.accept ((Kept.setSource ..).trans (Kept.loadLiveness ..)).form))))

theorem setSupervision (n : Byte) : (setSupervisionOwn h n s).Keeps s :=
  .check (.check (.accept ⟨rfl, fun c => { c with }⟩))

theorem flush (t : Byte) (a : Option Word) : (flushOwn h t a s).Keeps s :=
  .check (.check (.check (.accept (Kept.flush ..).form)))

theorem setLine (l e : Byte) (n : Half) (r : Byte) : (setLineOwn h l e n r s).Keeps s := by
  refine .check ?_
  split
  · exact .refuse _
  · exact .check (.accept (Kept.setLine ..).form)

theorem setInput (i e : Byte) : (setInputOwn h i e s).Keeps s := by
  refine .check ?_
  split
  · exact .refuse _
  · exact .check (.accept (Kept.setInput ..).form)

theorem setLink (l w : Byte) (n : Half) : (setLinkOwn h l w n s).Keeps s :=
  .check (.check (.accept (Kept.setLink ..).form))

end Verdict.Keeps

/-! ### LOAD_PLATE (R147) -/

theorem Kept.writeDescriptors (s : State) (ns : List Nat) (ds : List DescriptorField) :
    Kept s (s.writeDescriptors ns ds) := by
  induction ns generalizing s ds with
  | nil => exact .refl s
  | cons n ns ih =>
    cases ds with
    | nil => exact .refl s
    | cons d ds => exact (Kept.setDescriptor ..).trans (ih ..)

theorem Kept.openLoad (s : State) (p f m) : Kept s (s.openLoad p f m) :=
  .after (Kept.setPlate ..) (.of_eq rfl rfl rfl rfl rfl rfl rfl)

theorem Kept.appendPart (s : State) (p ds) : Kept s (s.appendPart p ds) :=
  .after ((Kept.writeDescriptors ..).trans (Kept.setPlate ..)) (.of_eq rfl rfl rfl rfl rfl rfl rfl)

theorem Kept.closeLoad (s : State) (p) : Kept s (s.closeLoad p) := by
  unfold State.closeLoad
  dsimp only
  split
  · exact (Kept.setDescriptor ..).trans (Kept.setPlate ..)
  · exact Kept.setPlate ..

theorem Kept.appendLast (s : State) (p : Nat) (last : Bool) (ds : List DescriptorField) :
    Kept s (if last then (s.appendPart p ds).closeLoad p else s.appendPart p ds) :=
  .ite ((Kept.appendPart ..).trans (Kept.closeLoad ..)) (Kept.appendPart ..)

theorem Verdict.Keeps.loadPlate (s : State) (h : Header) (b : LoadPlateBody) : (loadPlateOwn h b s).Keeps s := by
  refine .check ?_
  split
  · exact .refuse _
  · refine .check ?_
    split
    · split
      · exact .refuse _
      · exact .check (.check (.check (.accept ((Kept.openLoad ..).trans (Kept.appendLast ..)).form)))
    · exact .check (.check (.check (.check (.accept (Kept.appendLast ..).form))))

/-! ### Cues and their lists (R171 to R177) -/

theorem Kept.writeActions (s : State) (ns : List Nat) (as : List Action) : Kept s (s.writeActions ns as) := by
  induction ns generalizing s as with
  | nil => exact .refl s
  | cons n ns ih =>
    cases as with
    | nil => exact .refl s
    | cons a as => exact (Kept.setAction ..).trans (ih ..)

theorem Kept.appendActions (s : State) (as) : Kept s (s.appendActions as).1 :=
  .after (Kept.writeActions ..) (.of_eq rfl rfl rfl rfl rfl rfl rfl)

theorem Kept.loadNew (s : State) (c l t as) : Kept s (s.loadNew c l t as) :=
  .after ((Kept.appendActions ..).trans (Kept.setCue ..)) (.of_eq rfl rfl rfl rfl rfl rfl rfl)

theorem Kept.loadAppend (s : State) (c as) : Kept s (s.loadAppend c as) :=
  (Kept.appendActions ..).trans (Kept.setCue ..)

theorem Kept.linkTail (s : State) (l c) : Kept s (s.linkTail l c) := by
  unfold State.linkTail
  dsimp only
  split
  · exact (Kept.setCue ..).trans (Kept.setList ..)
  · exact ((Kept.setCue ..).trans (Kept.setCue ..)).trans (Kept.setList ..)

theorem Kept.linkAfter (s : State) (l c x) : Kept s (s.linkAfter l c x) :=
  ((Kept.setCue ..).trans (Kept.setCue ..)).trans (Kept.setList ..)

theorem Kept.unlink (s : State) (l c) : Kept s (s.unlink l c) := by
  unfold State.unlink
  dsimp only
  split
  · exact ((Kept.setCue ..).trans (Kept.setCue ..)).trans (Kept.setList ..)
  · exact (Kept.setCue ..).trans (Kept.setList ..)

namespace Verdict.Keeps

variable (s : State) (h : Header)

/-- The last checks of LOAD_CUE keep what the loading of actions keeps. -/
theorem loadCueActions (l own : Nat) (fs : List ActionField) (load : State → List Action → State) (c : Nat)
    (hl : ∀ as, Kept s (load s as)) : (loadCueActions s l own fs load c).Keeps s := by
  unfold Machine.loadCueActions
  split
  · exact .refuse _
  · exact .check (.check (.accept (hl _).form))

theorem loadCue (b : LoadCueBody) : (loadCueOwn h b s).Keeps s := by
  unfold loadCueOwn
  dsimp only
  split
  · exact .refuse _
  · refine .check ?_
    split
    · split
      · exact .refuse _
      · exact .check (.check (loadCueActions _ _ _ _ _ _ fun _ => Kept.loadNew ..))
    · exact .check (.check (.check (.check (loadCueActions _ _ _ _ _ _ fun _ => Kept.loadAppend ..))))

theorem linkCue (l : Byte) (c : Half) (p : PositionField) : (linkCueOwn h l c p s).Keeps s := by
  unfold linkCueOwn
  dsimp only
  split
  · exact .refuse _
  · refine .check ?_
    split
    · exact .refuse _
    · exact .check (.check (.check (.check (.accept (Kept.linkTail ..).form))))
    · exact .check (.check (.check (.check (.check (.check (.accept (Kept.linkAfter ..).form))))))

theorem unlinkCue (c : Half) : (unlinkCueOwn h c s).Keeps s :=
  .check (.check (.check (.check (.accept (Kept.unlink ..).form))))

theorem eraseCue (c : Half) : (eraseCueOwn h c s).Keeps s :=
  .check (.check (.check (.check (.accept ⟨rfl, fun k => { k with cues := Table.set_wf _ _ _ _ k.cues }⟩))))

theorem setList (l a p : Byte) : (setListOwn h l a p s).Keeps s := by
  refine .check ?_
  split
  · exact .refuse _
  · exact .check (.check (.check (.accept (Kept.setList ..).form)))

theorem startList (l : Byte) : (startListOwn h l s).Keeps s := by
  unfold startListOwn
  split
  · exact .refuse _
  · exact .check (.check (.check (.accept ((Kept.armList ..).trans (Kept.setList ..)).form)))

theorem stopList (l : Byte) : (stopListOwn h l s).Keeps s := by
  unfold stopListOwn
  split
  · exact .refuse _
  · exact .check (.ite .read (.accept (Kept.setList ..).form))

theorem go (l : Byte) : (goOwn h l s).Keeps s := by
  unfold goOwn
  split
  · exact .refuse _
  · refine .check ?_
    split
    · exact .refuse _
    · exact .refuse _
    · exact .check (.accept (Kept.setList ..).form)

end Verdict.Keeps

/-- The own checks of every row, accepting or refusing, keep the form of the state that they judge. -/
theorem own_keeps (before s : State) (i : Instr) : (i.own before s).Keeps s := by
  cases i with
  | nop | readTiming | touch => exact .read
  | readEvents => exact .readEvents s
  | setEventMask => exact .setEventMask ..
  | softClear => exact .softClear ..
  | setTiming => exact .setTiming ..
  | setFrame => exact .setFrame ..
  | setPoint => exact .setPoint ..
  | bindPoint => exact .bindPoint ..
  | loadCurve => exact .loadCurve ..
  | defineGroup => exact .defineGroup ..
  | readPoint => exact .readPoint ..
  | readGroup => exact .readGroup ..
  | readCurve => exact .readCurve ..
  | setSource => exact .setSource ..
  | setSupervision => exact .setSupervision ..
  | readSource => exact .readSource ..
  | take => exact .take ..
  | release => exact .release ..
  | releaseSource => exact .releaseSource ..
  | pause => exact .pause ..
  | resume => exact .resume ..
  | readContribution => exact .readContribution ..
  | flush => exact .flush ..
  | readQueue => exact .readQueue ..
  | forceSet => exact .forceSet ..
  | forceClear => exact .forceClear ..
  | freeze => exact .freeze ..
  | thaw => exact .thaw ..
  | masterSet => exact .masterSet ..
  | setWorklightLevel => exact .setWorklightLevel ..
  | readOverrides => exact .readOverrides ..
  | setLine => exact .setLine ..
  | readLine => exact .readLine ..
  | setInput => exact .setInput ..
  | readInput => exact .readInput ..
  | loadPlate => exact .loadPlate ..
  | platePlay => exact .platePlay ..
  | plateStop => exact .plateStop ..
  | setTile => exact .setTile ..
  | setLink => exact .setLink ..
  | readTile => exact .readTile ..
  | readLink => exact .readLink ..
  | readPlate => exact .readPlate ..
  | loadCue => exact .loadCue ..
  | linkCue => exact .linkCue ..
  | unlinkCue => exact .unlinkCue ..
  | eraseCue => exact .eraseCue ..
  | setList => exact .setList ..
  | startList => exact .startList ..
  | stopList => exact .stopList ..
  | go => exact .go ..
  | readCue => exact .readCue ..
  | readList => exact .readList ..
  | _ => exact .refuse .unknownCommand

/-! ### The frame around the checks (R185, R186) -/

namespace KeptForm

theorem replyWith (s : State) (c st b f) : KeptForm s (s.replyWith c st b f) := (Kept.replyWith ..).form

theorem endTransaction (s : State) (t : Nat) : KeptForm s (s.endTransaction t) := by
  rw [State.endTransaction_frame]
  exact ⟨rfl, fun c => { c with }⟩

theorem answer {s : State} {v : Verdict} (code : Byte) (h : v.Keeps s) : KeptForm s (s.answer code v) := by
  cases h with
  | refuse => exact replyWith ..
  | accept h => exact h.trans (replyWith ..)

theorem judgeCommand (before s : State) (code : Byte) (h : Header) (i : Instr) :
    KeptForm s (State.judgeCommand before s code h i) := by
  unfold State.judgeCommand
  split
  · exact replyWith ..
  · exact .ite (replyWith ..) ((KeptRoom.awaited s i).form.trans (answer code (own_keeps ..)))

theorem busyReload (s : State) (n : Nat) : KeptForm s (s.busyReload n) :=
  .ite (Kept.reloadSource s n).form (.refl s)

theorem judgeFrame (s : State) (code : Byte) (h : Header) (i : Instr) : KeptForm s (s.judgeFrame code h i) :=
  .ite (.trans (.ite (.refl s) (busyReload ..)) (replyWith ..))
    (.ite (replyWith ..) (.ite (replyWith ..) ((Kept.reloadSource ..).form.trans (judgeCommand ..))))

theorem takeFrame (s : State) (h : Header) (i : Instr) : KeptForm s (s.takeFrame h i) :=
  .ite (.refl s) (((endTransaction ..).trans (judgeFrame ..)).trans (Kept.resume ..).form)

theorem judgeRaw (s : State) (f : RawFrame) (time : Nat) : KeptForm s (s.judgeRaw f time) := by
  refine .ite ((busyReload ..).trans (replyWith ..)) (.ite (replyWith ..)
    ((Kept.reloadSource s _).form.trans (.ite (replyWith ..) ?_)))
  split
  · exact judgeCommand ..
  · exact replyWith ..

theorem takeBytes (s : State) (time : Nat) (bytes : List Byte) : KeptForm s (s.takeBytes time bytes) := by
  refine .ite (.refl s) ((endTransaction s time).trans ?_)
  split
  · exact replyWith ..
  · exact (judgeRaw ..).trans (Kept.resume ..).form

theorem beginTransaction (s : State) : KeptForm s s.beginTransaction := .ite (.refl s) ⟨rfl, fun c => { c with }⟩

/-! ### RESET# and the end of a SOFT_CLEAR (R193, R194) -/

theorem resetFalls (s : State) : KeptForm s s.resetFalls :=
  ⟨rfl, fun c => { c with lines := Table.mapListed_wf _ _ _ c.lines, links := Table.mapListed_wf _ _ _ c.links }⟩

end KeptForm

/-- After RESET# every store is empty. -/
theorem State.reset_canonical : Canonical State.reset := by constructor <;> rfl

namespace KeptForm

/-- The stores start anew, but for the inputs, whose pins stand (R142). -/
theorem resetRises (s : State) : KeptForm s s.resetRises :=
  .ite (.refl s) ⟨rfl, fun c => { State.reset_canonical with inputs := Table.mapListed_wf _ _ _ c.inputs }⟩

theorem endInitialisation (s : State) (time : Nat) : KeptForm s (s.endInitialisation time) :=
  .ite (.refl s) ⟨rfl, fun c => { c with }⟩

theorem endSoftClear (s : State) : KeptForm s s.endSoftClear := by
  have cleared : KeptForm s (if s.softClear = .waiting then s.settleRender.clearIfWaiting else s) :=
    .ite ((KeptRoom.settleRender s).form.trans (Kept.clearIfWaiting _).form) (.refl s)
  exact .ite (.refl s) (cleared.trans ⟨rfl, fun c => { c with }⟩)

/-! ### The event rows -/

theorem whenRunning {s t : State} (h : KeptForm s t) : KeptForm s (s.whenRunning t) := .ite h (.refl s)

theorem applyRow (s : State) (k : EntryKind) : KeptForm s (s.applyRow k) :=
  .ite ((Kept.applyThrough ..).trans (Kept.advance _)).form (.refl s)

/-- The row of a count's end: an end that is due leaves the outstanding work and is taken, and one that is not changes
nothing (log 5). -/
theorem dueRow {s t : State} {due : Prop} [Decidable due] (w : Work) (h : Kept (s.setWork w) t) :
    KeptForm s (s.whenRunning (if due then t else s)) :=
  whenRunning (.ite ((Kept.setWork s w).trans h).form (.refl s))

end KeptForm

/-- Every row answers a next state, which keeps the form. -/
theorem exec_keeps (i : Instr) (s : State) : ∃ t, exec i s = .next t ∧ KeptForm s t := by
  cases hh : i.header? with
  | some h => exact ⟨_, exec_of_header i h s hh, .takeFrame s h i⟩
  | none =>
    cases i with
    | transactionBegin => exact ⟨_, rfl, .beginTransaction s⟩
    | unknownCommand => exact ⟨_, rfl, .takeBytes ..⟩
    | softClearComplete => exact ⟨_, rfl, .whenRunning (.endSoftClear s)⟩
    | setPointApply | bindPointApply | loadCurveApply | takeApply | releaseApply | releaseSourceApply | pauseApply
    | resumeApply | forceSetApply | forceClearApply | freezeApply | thawApply | masterSetApply
    | setWorklightLevelApply | platePlayApply | plateStopApply | setTileApply => exact ⟨_, rfl, .applyRow ..⟩
    | resetFall => exact ⟨_, rfl, .resetFalls s⟩
    | resetRise => exact ⟨_, rfl, .resetRises s⟩
    | initialisationEnd => exact ⟨_, rfl, .endInitialisation ..⟩
    | refPulse => exact ⟨_, rfl, .whenRunning (KeptTimed.refPulse ..).form⟩
    | lossDeadline => exact ⟨_, rfl, .whenRunning (KeptTimed.lossExpiry s).form⟩
    | localTimerExpiry => exact ⟨_, rfl, .whenRunning (KeptTimed.localExpiry s).form⟩
    | holdoverEnd => exact ⟨_, rfl, .whenRunning (KeptTimed.expireHoldover s).form⟩
    | sourceLost =>
      exact ⟨_, rfl, .whenRunning (.ite ((Kept.loseSource ..).trans (Kept.advance _)).form (.refl s))⟩
    | fadeInComplete => exact ⟨_, rfl, .dueRow _ ((Kept.completeFadeIn ..).trans (Kept.advance _))⟩
    | fadeOutComplete => exact ⟨_, rfl, .dueRow _ ((Kept.completeFadeOut ..).trans (Kept.advance _))⟩
    | masterFadeEnd => exact ⟨_, rfl, .dueRow _ ((Kept.completeMaster ..).trans (Kept.advance _))⟩
    | cueFire => exact ⟨_, rfl, .whenRunning (KeptRoom.evaluateToFire s).form⟩
    | plateHoldExpiry => exact ⟨_, rfl, .dueRow _ ((Kept.completePlate ..).trans (Kept.advance _))⟩
    | dissolveEnd => exact ⟨_, rfl, .dueRow _ ((Kept.completeDissolve ..).trans (Kept.advance _))⟩
    | linkWakeComplete => exact ⟨_, rfl, .dueRow _ ((Kept.completeWake ..).trans (Kept.advance _))⟩
    | renderComplete => exact ⟨_, rfl, .whenRunning (KeptRoom.settleRender s).form⟩
    | linkIdleExpiry => exact ⟨_, rfl, .dueRow _ (Kept.restLink ..)⟩
    | lineFrameEnd => exact ⟨_, rfl, .whenRunning (Kept.setLine ..).form⟩
    | tilePacketEnd => exact ⟨_, rfl, .whenRunning (Kept.endPacket ..).form⟩
    | readCompletion => exact ⟨_, rfl, .whenRunning (Kept.completeRead ..).form⟩
    | readError => exact ⟨_, rfl, .whenRunning (Kept.failRead s).form⟩
    | wltChange => exact ⟨_, rfl, rfl, fun c => { c with }⟩
    | signalPresentChange => exact ⟨_, rfl, (Kept.setInput ..).form⟩
    | _ => cases hh

/-! ### The step -/

/-- An empty queue idles (log 2). -/
theorem step_idle (s : State) (h : s.pending = []) : step s = .next s := by rw [step, h]

theorem step_front (i : Instr) (rest : List Instr) (s : State) (h : s.pending = i :: rest) :
    step s = exec i { s with pending := rest } := by rw [step, h]

/-- Settles O1: a step is its two cases, the idle one and the front row's. -/
theorem stepRunsTheFrontCommand : Obligations.StepRunsTheFrontCommand := ⟨step_front, step_idle⟩

/-- Settles O2: a command frame by the frame around its own checks, an event row by its operation. -/
theorem everyCommandAnswersANextState : Obligations.EveryCommandAnswersANextState := by
  intro i s
  obtain ⟨t, answer, kept⟩ := exec_keeps i s
  exact ⟨t, answer, kept.pending⟩

/-- Settles O6: an idle step leaves the stores alone, and every row keeps them canonical; that the front row has left
the queue touches none of them. -/
theorem everyStepKeepsTheStoresCanonical : Obligations.EveryStepKeepsTheStoresCanonical := by
  intro s t canonical stepped
  cases front : s.pending with
  | nil =>
    cases (step_idle s front).symm.trans stepped
    exact canonical
  | cons i rest =>
    obtain ⟨u, answer, kept⟩ := exec_keeps i { s with pending := rest }
    cases answer.symm.trans ((step_front i rest s front).symm.trans stepped)
    exact kept.canonical { canonical with }

end Sys2Proof.Machine
end

section
/-! PROOF. The bounds of the shared counters (O4, O5) and the agreement of the occupancy map with the bindings (O39)
through every row. `KeptTimed` says both of the shared operations; here stand the commands' own checks, each of which
keeps it or, of SET_EVENT_MASK alone, stores a mask below bit 13, and the rows that change the part as a whole. -/

namespace Sys2Proof.Machine

/-! ### Verdicts (R186, check 8) -/

/-- A verdict on `s` that refuses, or accepts with a state that stands to `s` as `KeptTimed` says. -/
inductive Verdict.Within (s : State) : Verdict → Prop
  | refuse (st : Status) : Within s (.refuse st)
  | accept {t : State} {clamped : Bool} {fields : List Byte} (h : KeptTimed s t) : Within s (.accept t clamped fields)

/-- Every definition DEFINE_GROUP can store has a stride of 1 to 64 (R31). -/
theorem groupOf_stride {b : DefineGroupBody} {g : Group} (h : groupOf b = some g) : 1 ≤ g.stride ∧ g.stride ≤ 64 := by
  unfold groupOf at h
  dsimp only at h
  split at h
  · cases h
    decide
  · split at h
    · cases h
    · cases h
      dsimp only
      omega

/-- An entry that joins a queue with room keeps its bound (R88). -/
theorem KeptTimed.of_but {s t : State} (h : KeptBut 1 s t) (room : ¬ s.queueRoom = 0) : KeptTimed s t :=
  (h.room (Nat.one_le_iff_ne_zero.2 room)).timed

namespace Verdict.Within

/-- A check that only refuses. -/
theorem check {c : Prop} [Decidable c] {s : State} {st : Status} {v : Verdict} (h : v.Within s) :
    (if c then .refuse st else v).Within s := by
  split
  · exact .refuse st
  · exact h

variable (s : State) (h : Header)

/-- A read accepts the state as it stands. -/
theorem read {s : State} {clamped : Bool} {fields : List Byte} : (Verdict.accept s clamped fields).Within s :=
  .accept (.refl s)

/-- A read accepts the state as it stands, or with counts that its clear option has set to 0. -/
theorem clearing {s t : State} {c : Prop} [Decidable c] {fields : List Byte} (k : Kept s t) :
    (Verdict.accept (if c then t else s) false fields).Within s :=
  .accept (.ite k.timed (.refl s))

theorem kept {s t : State} {fields : List Byte} (k : Kept s t) : (Verdict.accept t false fields).Within s :=
  .accept k.timed

theorem queueCommand (eff : Word) (c : Bool) (b : EntryBody) (a : Option Handle) :
    (queueCommand s h eff c b a).Within s := by
  unfold Machine.queueCommand
  split
  · exact .refuse _
  · rename_i room
    exact .accept (.of_but (KeptBut.enqueue ..) room)

/-- The entry of a command whose effective frame is in range (R82, R83). -/
theorem queueEffective (b : EntryBody) (frame : Option (Word × Bool)) :
    (match frame with
      | none => .refuse .range
      | some (eff, clamped) => Machine.queueCommand s h eff clamped b none : Verdict).Within s := by
  split
  · exact .refuse _
  · exact queueCommand ..

/-! ### Frame-applied commands at arrival -/

theorem setPoint (b : SetPointBody) : (setPointArrival h b s).Within s := by
  refine .check ?_
  split
  · exact queueCommand ..
  · exact .refuse _

theorem bindPoint (p : Half) (b : BindingField) : (bindPointArrival h p b s).Within s := by
  refine .check (.check ?_)
  split
  · exact queueCommand ..
  · exact .refuse _

theorem loadCurve (c : Byte) (ks : List Half) : (loadCurveArrival h c ks s).Within s := by
  refine .check ?_
  split
  · exact .refuse _
  · exact .check (.check (queueCommand ..))

theorem take (b : TakeBody) : (takeArrival h b s).Within s := by
  unfold takeArrival
  dsimp only
  split
  · refine .check (.check (.check ?_))
    split
    · exact .refuse _
    · rename_i room
      split
      · exact .refuse _
      · exact .refuse _
      · exact .accept (.of_but (KeptBut.reserve ..) room)
  · exact .refuse _

theorem release (a : AddressField) : (releaseArrival h a s).Within s := by
  unfold releaseArrival
  split
  · exact queueCommand ..
  · exact .refuse _

theorem releaseSource (t : Byte) : (releaseSourceArrival h t s).Within s := by
  refine .check (.check ?_)
  split
  · exact queueCommand ..
  · exact .refuse _

theorem pause (a : AddressField) : (pauseArrival h a s).Within s := by
  unfold pauseArrival
  split
  · exact queueCommand ..
  · exact .refuse _

theorem resume (a : AddressField) : (resumeArrival h a s).Within s := by
  unfold resumeArrival
  split
  · exact queueCommand ..
  · exact .refuse _

theorem forceSet (x : SelectorField) (m : Byte) (v : Half) : (forceSetArrival h x m v s).Within s := by
  refine .check ?_
  split
  · exact .refuse _
  · exact .check (.check (queueEffective ..))

theorem masterSet (m : Byte) (t f : Half) : (masterSetArrival h m t f s).Within s := by
  refine .check (.check ?_)
  split
  · exact queueCommand ..
  · exact .refuse _

theorem setTile (b : SetTileBody) : (setTileArrival h b s).Within s := by
  refine .check ?_
  split
  · exact queueCommand ..
  · exact .refuse _

/-! ### Reads -/

theorem readContribution (a : ReadAddressField) (w : Option Window) : (readContributionOwn a w s).Within s := by
  unfold readContributionOwn
  split
  · exact .refuse _
  · exact .refuse _
  · split
    · exact .refuse _
    · exact .read
    · exact .read
    · split
      · exact .read
      · exact .refuse _

theorem readCue (c : Half) (w : Option Window) : (readCueOwn c w s).Within s := by
  refine .check ?_
  split
  · exact .read
  · exact .check (.check .read)

theorem readList (l : Byte) : (readListOwn l s).Within s := by
  unfold readListOwn
  split
  · exact .refuse _
  · exact .read

theorem readSource (t c : Byte) : (readSourceOwn h t c s).Within s := by
  unfold readSourceOwn
  split
  · exact .refuse _
  · exact .check (.check (.clearing (Kept.setSource ..)))

theorem readLine (l c : Byte) : (readLineOwn h l c s).Within s := by
  unfold readLineOwn
  split
  · exact .refuse _
  · exact .check (.check (.clearing (Kept.setLine ..)))

theorem readInput (i c : Byte) : (readInputOwn h i c s).Within s := by
  unfold readInputOwn
  split
  · exact .refuse _
  · exact .check (.check (.clearing (Kept.setInput ..)))

theorem readTile (t c : Byte) : (readTileOwn h t c s).Within s := by
  unfold readTileOwn
  split
  · exact .refuse _
  · exact .check (.check (.clearing (Kept.setTile ..)))

theorem readLink (l c : Byte) : (readLinkOwn h l c s).Within s := by
  unfold readLinkOwn
  split
  · exact .refuse _
  · exact .check (.check (.clearing (Kept.setLink ..)))

theorem readPlate (p c : Byte) (w : Option Window) : (readPlateOwn h p c w s).Within s := by
  unfold readPlateOwn
  split
  · exact .refuse _
  · exact .check (.check (.check (.clearing (Kept.setPlate ..))))

/-! ### Commands with an immediate effect -/

theorem readEvents : (readEventsOwn s).Within s :=
  .kept (.of_events_empty rfl rfl rfl rfl rfl (Nat.le_refl _) rfl fun c => { c with events := rfl })

theorem setTiming (r e : Byte) (l : Half) : (setTimingOwn h r e l s).Within s := by
  refine .check ?_
  split
  · exact .refuse _
  · exact .check (.accept (KeptTimed.applyTiming ..))

theorem defineGroup (b : DefineGroupBody) : (defineGroupOwn h b s).Within s := by
  refine .check (.check (.check ?_))
  split
  · exact .refuse _
  · rename_i stored
    exact .check (.kept (Kept.setGroup _ _ _ (groupOf_stride stored)))

theorem setSource (b : SetSourceBody) : (setSourceOwn h b s).Within s := by
  refine .check ?_
  split
  · exact .refuse _
  · exact .check (.check (.check (.check (.kept ((Kept.setSource ..).trans (Kept.loadLiveness ..))))))

theorem setLine (l e : Byte) (n : Half) (r : Byte) : (setLineOwn h l e n r s).Within s := by
  refine .check ?_
  split
  · exact .refuse _
  · exact .check (.kept (Kept.setLine ..))

theorem setInput (i e : Byte) : (setInputOwn h i e s).Within s := by
  refine .check ?_
  split
  · exact .refuse _
  · exact .check (.kept (Kept.setInput ..))

theorem loadPlate (b : LoadPlateBody) : (loadPlateOwn h b s).Within s := by
  refine .check ?_
  split
  · exact .refuse _
  · refine .check ?_
    split
    · split
      · exact .refuse _
      · exact .check (.check (.check (.kept ((Kept.openLoad ..).trans (Kept.appendLast ..)))))
    · exact .check (.check (.check (.check (.kept (Kept.appendLast ..)))))

/-- The last checks of LOAD_CUE keep what the loading of actions keeps. -/
theorem loadCueActions (l own : Nat) (fs : List ActionField) (load : State → List Action → State) (c : Nat)
    (hl : ∀ as, Kept s (load s as)) : (loadCueActions s l own fs load c).Within s := by
  unfold Machine.loadCueActions
  split
  · exact .refuse _
  · exact .check (.check (.kept (hl _)))

theorem loadCue (b : LoadCueBody) : (loadCueOwn h b s).Within s := by
  unfold loadCueOwn
  dsimp only
  split
  · exact .refuse _
  · refine .check ?_
    split
    · split
      · exact .refuse _
      · exact .check (.check (loadCueActions _ _ _ _ _ _ fun _ => Kept.loadNew ..))
    · exact .check (.check (.check (.check (loadCueActions _ _ _ _ _ _ fun _ => Kept.loadAppend ..))))

theorem linkCue (l : Byte) (c : Half) (p : PositionField) : (linkCueOwn h l c p s).Within s := by
  unfold linkCueOwn
  dsimp only
  split
  · exact .refuse _
  · refine .check ?_
    split
    · exact .refuse _
    · exact .check (.check (.check (.check (.kept (Kept.linkTail ..)))))
    · exact .check (.check (.check (.check (.check (.check (.kept (Kept.linkAfter ..)))))))

theorem eraseCue (c : Half) : (eraseCueOwn h c s).Within s :=
  .check (.check (.check (.check (.kept (.after (Kept.setCue ..) (.of_eq rfl rfl rfl rfl rfl rfl rfl))))))

theorem setList (l a p : Byte) : (setListOwn h l a p s).Within s := by
  refine .check ?_
  split
  · exact .refuse _
  · exact .check (.check (.check (.kept (Kept.setList ..))))

theorem startList (l : Byte) : (startListOwn h l s).Within s := by
  unfold startListOwn
  split
  · exact .refuse _
  · exact .check (.check (.check (.kept ((Kept.armList ..).trans (Kept.setList ..)))))

theorem stopList (l : Byte) : (stopListOwn h l s).Within s := by
  unfold stopListOwn
  split
  · exact .refuse _
  · refine .check ?_
    dsimp only
    split
    · exact .read
    · exact .kept (Kept.setList ..)

theorem go (l : Byte) : (goOwn h l s).Within s := by
  unfold goOwn
  split
  · exact .refuse _
  · refine .check ?_
    split
    · exact .refuse _
    · exact .refuse _
    · exact .check (.kept (Kept.setList ..))

end Verdict.Within

/-- The own checks of every row but SET_EVENT_MASK, accepting or refusing, keep the mask and the bounds of the state
that they judge. -/
theorem own_within (before s : State) (i : Instr) (hm : ∀ h m, i ≠ .setEventMask h m) : (i.own before s).Within s := by
  cases i with
  | setEventMask h m => exact absurd rfl (hm h m)
  | nop | readTiming | touch => exact .read
  | readEvents => exact .readEvents s
  | softClear => exact .check (.kept (Kept.beginSoftClear s))
  | setTiming => exact .setTiming ..
  | setFrame => exact .check (.accept (KeptTimed.setTimer ..))
  | setPoint => exact .setPoint ..
  | bindPoint => exact .bindPoint ..
  | loadCurve => exact .loadCurve ..
  | defineGroup => exact .defineGroup ..
  | readPoint | readGroup | readCurve | readQueue | readOverrides => exact .check .read
  | setSource => exact .setSource ..
  | setSupervision => exact .check (.check (.kept (.of_eq rfl rfl rfl rfl rfl rfl rfl)))
  | readSource => exact .readSource ..
  | take => exact .take ..
  | release => exact .release ..
  | releaseSource => exact .releaseSource ..
  | pause => exact .pause ..
  | resume => exact .resume ..
  | readContribution => exact .readContribution ..
  | flush => exact .check (.check (.check (.kept (Kept.flush ..))))
  | forceSet => exact .forceSet ..
  | forceClear => exact .check (.check (.queueEffective ..))
  | freeze | thaw | setWorklightLevel | platePlay | plateStop => exact .check (.queueEffective ..)
  | masterSet => exact .masterSet ..
  | setLine => exact .setLine ..
  | readLine => exact .readLine ..
  | setInput => exact .setInput ..
  | readInput => exact .readInput ..
  | loadPlate => exact .loadPlate ..
  | setTile => exact .setTile ..
  | setLink => exact .check (.check (.kept (Kept.setLink ..)))
  | readTile => exact .readTile ..
  | readLink => exact .readLink ..
  | readPlate => exact .readPlate ..
  | loadCue => exact .loadCue ..
  | linkCue => exact .linkCue ..
  | unlinkCue => exact .check (.check (.check (.check (.kept (Kept.unlink ..)))))
  | eraseCue => exact .eraseCue ..
  | setList => exact .setList ..
  | startList => exact .startList ..
  | stopList => exact .stopList ..
  | go => exact .go ..
  | readCue => exact .readCue ..
  | readList => exact .readList ..
  | _ => exact .refuse .unknownCommand

/-! ### What every row keeps -/

/-- From `s` to `t` the bounds of the shared counters stand, and, the stores being canonical, they stay canonical and
the occupancy map goes on to agree with the bindings. -/
structure KeptSound (s t : State) : Prop where
  bounds : Bounded s → Bounded t
  canonical : Canonical s → Canonical t
  occupancy : Canonical s → OccupancyAgrees s → OccupancyAgrees t

theorem KeptTimed.bounds {s t : State} (k : KeptTimed s t) (b : Bounded s) : Bounded t := by
  obtain ⟨queue, mask, counts, strides⟩ := b
  refine ⟨Nat.le_trans k.queue (Nat.max_le.2 ⟨Nat.le_refl _, queue⟩), k.mask ▸ mask, fun j hj => ?_, k.strides strides⟩
  exact Nat.le_trans (k.events j) (Nat.max_le.2 ⟨Nat.le_refl _, counts j hj⟩)

theorem KeptTimed.sound {s t : State} (k : KeptTimed s t) : KeptSound s t := ⟨k.bounds, k.canonical, k.occupancy⟩
theorem KeptRoom.sound {s t : State} (k : KeptRoom s t) : KeptSound s t := k.timed.sound
theorem Kept.sound {s t : State} (k : Kept s t) : KeptSound s t := k.timed.sound

namespace KeptSound

theorem refl (s : State) : KeptSound s s := ⟨id, id, fun _ => id⟩

theorem trans {s t u : State} (h : KeptSound s t) (g : KeptSound t u) : KeptSound s u :=
  ⟨g.bounds ∘ h.bounds, g.canonical ∘ h.canonical, fun c a => g.occupancy (h.canonical c) (h.occupancy c a)⟩

theorem ite {c : Prop} [Decidable c] {s t u : State} (h : KeptSound s t) (g : KeptSound s u) :
    KeptSound s (if c then t else u) := by
  split
  · exact h
  · exact g

/-- An update that touches neither the bounded items nor the two maps. -/
theorem of_eq {s t : State} (hc : Canonical s → Canonical t) (hq : t.queue = s.queue := by rfl)
    (hm : t.mask = s.mask := by rfl) (he : t.events = s.events := by rfl) (hg : t.groups = s.groups := by rfl)
    (hp : t.points = s.points := by rfl) (ho : t.occupancy = s.occupancy := by rfl) : KeptSound s t := by
  refine ⟨fun ⟨queue, mask, counts, strides⟩ => ?_, hc, fun _ => .of_maps hp ho⟩
  refine ⟨hq ▸ queue, hm ▸ mask, fun k hk => ?_, strides.of_groups hg⟩
  have := counts k hk
  unfold State.event at this ⊢
  rwa [he]

/-! ### The frame around the checks (R185, R186) -/

/-- SET_EVENT_MASK stores no bit above bit 12 (R192). -/
theorem setMask (s : State) (m : Half) (hm : m.toNat < 8192) : KeptSound s { s with mask := m } :=
  ⟨fun ⟨queue, _, counts, strides⟩ => ⟨queue, hm, counts, strides.of_groups rfl⟩, fun c => { c with },
    fun _ => .of_maps rfl rfl⟩

theorem replyWith (s : State) (c st b f) : KeptSound s (s.replyWith c st b f) := (Kept.replyWith ..).sound

theorem answer_within {s : State} {v : Verdict} (code : Byte) (h : v.Within s) : KeptSound s (s.answer code v) := by
  cases h with
  | refuse => exact replyWith ..
  | accept h => exact h.sound.trans (replyWith ..)

theorem answer_mask (s : State) (code : Byte) (h : Header) (m : Half) :
    KeptSound s (s.answer code (setEventMaskOwn h m s)) := by
  unfold setEventMaskOwn
  split
  · exact replyWith ..
  · split
    · exact replyWith ..
    · rename_i below
      exact (setMask s m (Nat.lt_of_not_le below)).trans (replyWith ..)

/-- What a command's own checks answer. -/
theorem answer_own (before s : State) (code : Byte) (i : Instr) : KeptSound s (s.answer code (i.own before s)) := by
  by_cases mask : ∃ h m, i = .setEventMask h m
  · obtain ⟨h, m, rfl⟩ := mask
    exact answer_mask ..
  · exact answer_within _ (own_within _ _ _ fun h m e => mask ⟨h, m, e⟩)

theorem endTransaction (s : State) (t : Nat) : KeptSound s (s.endTransaction t) := by
  rw [State.endTransaction_frame]
  exact .of_eq fun c => { c with }

theorem judgeCommand (before s : State) (code : Byte) (h : Header) (i : Instr) :
    KeptSound s (State.judgeCommand before s code h i) := by
  unfold State.judgeCommand
  split
  · exact replyWith ..
  · exact .ite (replyWith ..) ((KeptRoom.awaited s i).sound.trans (answer_own ..))

theorem busyReload (s : State) (n : Nat) : KeptSound s (s.busyReload n) :=
  .ite (Kept.reloadSource s n).sound (.refl s)

theorem judgeFrame (s : State) (code : Byte) (h : Header) (i : Instr) : KeptSound s (s.judgeFrame code h i) :=
  .ite (.trans (.ite (.refl s) (busyReload ..)) (replyWith ..))
    (.ite (replyWith ..) (.ite (replyWith ..) ((Kept.reloadSource ..).sound.trans (judgeCommand ..))))

theorem takeFrame (s : State) (h : Header) (i : Instr) : KeptSound s (s.takeFrame h i) :=
  .ite (.refl s) (((endTransaction ..).trans (judgeFrame ..)).trans (Kept.resume ..).sound)

theorem judgeRaw (s : State) (f : RawFrame) (time : Nat) : KeptSound s (s.judgeRaw f time) := by
  refine .ite ((busyReload ..).trans (replyWith ..)) (.ite (replyWith ..)
    ((Kept.reloadSource s _).sound.trans (.ite (replyWith ..) ?_)))
  split
  · exact judgeCommand ..
  · exact replyWith ..

theorem takeBytes (s : State) (time : Nat) (bytes : List Byte) : KeptSound s (s.takeBytes time bytes) := by
  refine .ite (.refl s) ((endTransaction s time).trans ?_)
  split
  · exact replyWith ..
  · exact (judgeRaw ..).trans (Kept.resume ..).sound

theorem beginTransaction (s : State) : KeptSound s s.beginTransaction :=
  .ite (.refl s) (.of_eq fun c => { c with })

/-! ### RESET# and the end of a SOFT_CLEAR (R193, R194) -/

theorem resetFalls (s : State) : KeptSound s s.resetFalls := .of_eq (KeptForm.resetFalls s).canonical

end KeptSound

/-- After RESET# nothing waits, nothing has been counted, the mask is the 13 events and every stride is 1. -/
theorem State.reset_bounded : Bounded State.reset := by
  refine ⟨by decide, by decide, fun _ _ => Nat.zero_le 255, fun g _ => ?_⟩
  have stride : (State.reset.group g).stride = 1 := by
    show (Group.por g).stride = 1
    unfold Group.por
    split <;> rfl
  omega

/-- After RESET# no point is bound and no output is occupied. -/
theorem State.reset_occupancy : OccupancyAgrees State.reset := fun p k => by
  show k ∈ ([] : List Nat) ↔ (none : Option Nat) = some p
  simp

/-- Settles O4: no store lists anything at reset, so that each of the three is its default's. -/
theorem resetMeetsTheInvariants : Obligations.ResetMeetsTheInvariants :=
  ⟨State.reset_bounded, State.reset_canonical, State.reset_occupancy⟩

namespace KeptSound

/-- The rise of RESET# leaves the reset state but for items without a bound. -/
theorem resetRises (s : State) : KeptSound s s.resetRises := by
  refine ⟨fun b => ?_, (KeptForm.resetRises s).canonical, fun _ a => ?_⟩
  · unfold State.resetRises
    split
    · exact b
    · exact State.reset_bounded
  · unfold State.resetRises
    split
    · exact a
    · exact State.reset_occupancy

theorem endInitialisation (s : State) (time : Nat) : KeptSound s (s.endInitialisation time) :=
  .ite (.refl s) (.of_eq fun c => { c with })

theorem endSoftClear (s : State) : KeptSound s s.endSoftClear := by
  have cleared : KeptSound s (if s.softClear = .waiting then s.settleRender.clearIfWaiting else s) :=
    .ite ((KeptRoom.settleRender s).trans (Kept.clearIfWaiting _).room).sound (.refl s)
  exact .ite (.refl s) (cleared.trans (.of_eq fun c => { c with }))

/-! ### The event rows -/

theorem whenRunning {s t : State} (h : KeptSound s t) : KeptSound s (s.whenRunning t) := .ite h (.refl s)

theorem applyRow (s : State) (k : EntryKind) : KeptSound s (s.applyRow k) :=
  .ite ((Kept.applyThrough ..).trans (Kept.advance _)).sound (.refl s)

/-- The row of a count's end, taken where it is due (log 5). -/
theorem dueRow {s t : State} {due : Prop} [Decidable due] (w : Work) (h : Kept (s.setWork w) t) :
    KeptSound s (s.whenRunning (if due then t else s)) :=
  whenRunning (.ite ((Kept.setWork s w).trans h).sound (.refl s))

end KeptSound

/-- Whatever a row answers keeps the bounds and the agreement of the maps. -/
theorem exec_sound (i : Instr) (s : State) : ∃ t, exec i s = .next t ∧ KeptSound s t := by
  cases hh : i.header? with
  | some h => exact ⟨_, exec_of_header i h s hh, .takeFrame s h i⟩
  | none =>
    cases i with
    | transactionBegin => exact ⟨_, rfl, .beginTransaction s⟩
    | unknownCommand => exact ⟨_, rfl, .takeBytes ..⟩
    | softClearComplete => exact ⟨_, rfl, .whenRunning (.endSoftClear s)⟩
    | setPointApply | bindPointApply | loadCurveApply | takeApply | releaseApply | releaseSourceApply | pauseApply
    | resumeApply | forceSetApply | forceClearApply | freezeApply | thawApply | masterSetApply
    | setWorklightLevelApply | platePlayApply | plateStopApply | setTileApply => exact ⟨_, rfl, .applyRow ..⟩
    | resetFall => exact ⟨_, rfl, .resetFalls s⟩
    | resetRise => exact ⟨_, rfl, .resetRises s⟩
    | initialisationEnd => exact ⟨_, rfl, .endInitialisation ..⟩
    | refPulse => exact ⟨_, rfl, .whenRunning (KeptTimed.refPulse ..).sound⟩
    | lossDeadline => exact ⟨_, rfl, .whenRunning (KeptTimed.lossExpiry s).sound⟩
    | localTimerExpiry => exact ⟨_, rfl, .whenRunning (KeptTimed.localExpiry s).sound⟩
    | holdoverEnd => exact ⟨_, rfl, .whenRunning (KeptTimed.expireHoldover s).sound⟩
    | sourceLost =>
      exact ⟨_, rfl, .whenRunning (.ite ((Kept.loseSource ..).trans (Kept.advance _)).sound (.refl s))⟩
    | fadeInComplete => exact ⟨_, rfl, .dueRow _ ((Kept.completeFadeIn ..).trans (Kept.advance _))⟩
    | fadeOutComplete => exact ⟨_, rfl, .dueRow _ ((Kept.completeFadeOut ..).trans (Kept.advance _))⟩
    | masterFadeEnd => exact ⟨_, rfl, .dueRow _ ((Kept.completeMaster ..).trans (Kept.advance _))⟩
    | cueFire => exact ⟨_, rfl, .whenRunning (KeptRoom.evaluateToFire s).sound⟩
    | plateHoldExpiry => exact ⟨_, rfl, .dueRow _ ((Kept.completePlate ..).trans (Kept.advance _))⟩
    | dissolveEnd => exact ⟨_, rfl, .dueRow _ ((Kept.completeDissolve ..).trans (Kept.advance _))⟩
    | linkWakeComplete => exact ⟨_, rfl, .dueRow _ ((Kept.completeWake ..).trans (Kept.advance _))⟩
    | renderComplete => exact ⟨_, rfl, .whenRunning (KeptRoom.settleRender s).sound⟩
    | linkIdleExpiry => exact ⟨_, rfl, .dueRow _ (Kept.restLink ..)⟩
    | lineFrameEnd => exact ⟨_, rfl, .whenRunning (Kept.setLine ..).sound⟩
    | tilePacketEnd => exact ⟨_, rfl, .whenRunning (Kept.endPacket ..).sound⟩
    | readCompletion => exact ⟨_, rfl, .whenRunning (Kept.completeRead ..).sound⟩
    | readError => exact ⟨_, rfl, .whenRunning (Kept.failRead s).sound⟩
    | wltChange => exact ⟨_, rfl, .of_eq fun c => { c with }⟩
    | signalPresentChange => exact ⟨_, rfl, (Kept.setInput ..).sound⟩
    | _ => cases hh

/-- That the front row has left the queue of commands touches no store; an empty queue idles (log 2). -/
theorem step_sound (s t : State) (stepped : step s = .next t) : KeptSound s t := by
  cases front : s.pending with
  | nil =>
    cases (step_idle s front).symm.trans stepped
    exact .refl s
  | cons i rest =>
    obtain ⟨u, answer, kept⟩ := exec_sound i { s with pending := rest }
    cases answer.symm.trans ((step_front i rest s front).symm.trans stepped)
    have taken : KeptSound s { s with pending := rest } := .of_eq fun c => { c with }
    exact taken.trans kept

/-- Settles O5: the bounds are a part of what every step keeps. -/
theorem everyStepKeepsTheBounds : Obligations.EveryStepKeepsTheBounds :=
  fun s t bounds stepped => (step_sound s t stepped).bounds bounds

end Sys2Proof.Machine
end

section
/-! PROOF. The configuration commands at arrival (R23, R25, R35, R131, R155): each passes its own checks down to the room in
the queue. -/

namespace Sys2Proof.Machine

section
variable {s : State} {h : Header} {eff : Word} {cl : Bool} (hc : h.configures = true)
  (he : effectiveFrame s.timer.counter h = some (eff, cl))
include hc he

theorem setPointArrival_queues (b : SetPointBody) (f : PointFields) (hf : pointFieldsOf b = some f) :
    setPointArrival h b s =
      queueCommand s h eff (cl || f.offset != signed16 b.offset) (.setPoint b.point.toNat f) none := by
  simp [setPointArrival, hc, hf, he]

theorem bindPointArrival_queues (p : Half) (b : BindingField) (v : Binding) (hp : p.toNat ≤ 2559)
    (hb : bindingOf b = some v) :
    bindPointArrival h p b s = queueCommand s h eff cl (.bindPoint p.toNat v) none := by
  simp [bindPointArrival, hc, Nat.not_lt.2 hp, hb, he]

theorem loadCurveArrival_queues (c : Byte) (ks : List Half) (h1 : 1 ≤ c.toNat) (h7 : c.toNat ≤ 7) :
    loadCurveArrival h c ks s = queueCommand s h eff cl (.loadCurve c.toNat (ks.map BitVec.toNat)) none := by
  have some' : c ≠ 0#8 := by
    rintro rfl
    exact absurd h1 (by decide)
  simp [loadCurveArrival, hc, he, Nat.not_lt.2 h7, some']

/-- Curve 0 is the identity for good (R34, R35). -/
theorem loadCurveArrival_identity (ks : List Half) : loadCurveArrival h 0 ks s = .refuse .notPermitted := by
  simp [loadCurveArrival, hc, he]

theorem setTileArrival_queues (b : SetTileBody) (f : TileFields) (hf : tileFieldsOf b = some f) :
    setTileArrival h b s = queueCommand s h eff cl (.setTile b.tile.toNat f) none := by
  simp [setTileArrival, hc, hf, he]

end

/-- Settles O27: each command's own checks pass down to the room in the queue; LOAD_CURVE of curve 0 stops before it. -/
theorem configurationArrivalsComplete : Obligations.ConfigurationArrivalsComplete := by
  rintro s h eff cl source ⟨frame, room⟩
  have hc := h.configures_of_le source
  have at' : effectiveFrame (s.met h).timer.counter h = some (eff, cl) := by rwa [State.met_timer]
  refine ⟨fun b f a hf => ?_, fun p b v a hp hb => ?_, fun c ks a h1 h7 => ?_, fun ks a => ?_, fun v a => ?_,
    fun b f a hf => ?_⟩
  · exact exec_queued s h _ eff _ _ _ rfl a rfl room (setPointArrival_queues hc at' b f hf)
  · exact exec_queued s h _ eff cl _ _ rfl a rfl room (bindPointArrival_queues hc at' p b v hp hb)
  · exact exec_queued s h _ eff cl _ _ rfl a rfl room (loadCurveArrival_queues hc at' c ks h1 h7)
  · exact exec_refused s h _ _ rfl a rfl (loadCurveArrival_identity hc at' ks)
  · exact exec_queued s h _ eff cl _ _ rfl a rfl room (setWorklightLevelArrival_queues at' v source)
  · exact exec_queued s h _ eff cl _ _ rfl a rfl room (setTileArrival_queues hc at' b f hf)

end Sys2Proof.Machine
end

section
/-! PROOF. DEFINE_GROUP and the reads of points, groups and curves (R31, R36, R37). -/

namespace Sys2Proof.Machine

/-- A definition in range is stored as it comes (R31). -/
theorem groupOf_in_range (b : DefineGroupBody) (c1 : 1 ≤ b.count.toNat) (cn : b.count.toNat ≤ 2560)
    (s1 : 1 ≤ b.stride.toNat) (sn : b.stride.toNat ≤ 64)
    (fits : b.base.toNat + b.count.toNat * b.stride.toNat ≤ 2560) :
    groupOf b = some ⟨b.base.toNat, b.count.toNat, b.stride.toNat⟩ := by
  have last : (b.count.toNat - 1) * b.stride.toNat + b.stride.toNat = b.count.toNat * b.stride.toNat := by
    rw [← Nat.succ_mul, Nat.succ_eq_add_one, Nat.sub_add_cancel c1]
  unfold groupOf
  dsimp only
  rw [if_neg (by omega), if_neg (by omega)]

/-- A count of 0 makes the group undefined (R31). -/
theorem groupOf_undefined (b : DefineGroupBody) (h0 : b.count = 0) : groupOf b = some ⟨0, 0, 1⟩ := by
  simp [groupOf, h0]

section
variable (s : State) (h : Header) (b : DefineGroupBody)

theorem defineGroupOwn_fixed (hc : h.configures = true) (h0 : b.group = 0) :
    defineGroupOwn h b s = .refuse .notPermitted := by
  simp [defineGroupOwn, hc, h0]

/-- A definition in range comes down to whether the group is in use. -/
theorem defineGroupOwn_eq (hc : h.configures = true) (g : Group) (h1 : 1 ≤ b.group.toNat) (hn : b.group.toNat ≤ 127)
    (hg : groupOf b = some g) :
    defineGroupOwn h b s =
      if s.groupInUse b.group.toNat then .refuse .inUse
      else .accept (s.setGroup b.group.toNat g) false (u16 g.base ++ u16 g.count ++ u8 g.stride) := by
  have other : b.group ≠ 0#8 := by
    intro h0
    rw [h0] at h1
    exact absurd h1 (by decide)
  simp [defineGroupOwn, hc, Nat.not_lt.2 hn, other, hg]

/-- DEFINE_GROUP with a definition in range, on a group that is in use and on one that is not (R31). -/
theorem exec_defineGroup (a : Admitted s h (.defineGroup h b)) (source : h.src ≤ 1) (g : Group)
    (h1 : 1 ≤ b.group.toNat) (hn : b.group.toNat ≤ 127) (hg : groupOf b = some g) :
    (s.groupInUse b.group.toNat = false →
      exec (.defineGroup h b) s = .next (s.accepted h (.defineGroup h b) ((s.met h).setGroup b.group.toNat g) false
        (u16 g.base ++ u16 g.count ++ u8 g.stride))) ∧
    (s.groupInUse b.group.toNat = true →
      exec (.defineGroup h b) s = .next (s.refused h (.defineGroup h b) .inUse)) := by
  have own := defineGroupOwn_eq (s.met h) h b (h.configures_of_le source) g h1 hn hg
  rw [State.met_groupInUse] at own
  refine ⟨fun free => ?_, fun used => ?_⟩
  · refine exec_accepted s _ h _ false _ rfl a (own.trans ?_)
    rw [free]
    rfl
  · refine exec_refused s h _ _ rfl a rfl (own.trans ?_)
    rw [used]
    rfl

end

/-- A read whose check 8 is the range of one number: in range it replies with its fields and changes no table, above it
it is refused RANGE. -/
theorem exec_read (s : State) (h : Header) (i : Instr) (n limit : Nat) (fields : List Byte) (hh : i.header? = some h)
    (hw : s.judged h i = s.met h) (a : Admitted s h i)
    (own : i.own (s.endTransaction h.time) (s.met h) =
      if n > limit then .refuse .range else .accept (s.met h) false fields) :
    (limit < n → exec i s = .next (s.refused h i .range)) ∧
    (n ≤ limit → exec i s = .next (s.accepted h i (s.met h) false fields)) := by
  refine ⟨fun above => exec_refused s h i _ hh a hw (own.trans (if_pos above)), fun within => ?_⟩
  exact exec_accepted s _ h i false _ hh a (hw ▸ own.trans (if_neg (Nat.not_lt.2 within)))

/-- Settles O19: DEFINE_GROUP comes down to the group's use, and each read to the range of its number; what a read
replies is not touched by the reload of its source. -/
theorem groupAndPointReadsComplete : Obligations.GroupAndPointReadsComplete := by
  refine ⟨fun s h b a source => ⟨fun h0 => ?_, fun h1 hn c1 cn s1 sn fits => ?_, fun h1 hn h0 => ?_⟩,
    fun s h => ⟨fun p a => ?_, fun g a => ?_, fun c a => ?_⟩⟩
  · exact exec_refused s h _ _ rfl a rfl (defineGroupOwn_fixed _ h b (h.configures_of_le source) h0)
  · exact exec_defineGroup s h b a source _ h1 hn (groupOf_in_range b c1 cn s1 sn fits)
  · exact exec_defineGroup s h b a source _ h1 hn (groupOf_undefined b h0)
  · exact exec_read s h _ _ 2559 _ rfl rfl a (by simp [Instr.own, readPointOwn])
  · exact exec_read s h _ _ 127 _ rfl rfl a (by simp [Instr.own, readGroupOwn])
  · exact exec_read s h _ _ 7 _ rfl rfl a (by simp [Instr.own, readCurveOwn])

end Sys2Proof.Machine
end

section
/-! PROOF. The entries of the configuration commands at their turn (R24, R26, R35, R131, R155), the occupancy map under
BIND_POINT (R21), the entries that are dropped (R90, R91), and what an application leaves waiting (R85, R87). -/

namespace Sys2Proof.Machine

/-! ### SET_POINT and BIND_POINT at application (R24, R26) -/

theorem forceUnsuitsSource_eq_false (x : Option Force) :
    forceUnsuitsSource x = false ↔ ∀ f, x = some f → f.mode = .park ∧ f.value ≤ 12 := by
  cases x with
  | none => simp [forceUnsuitsSource]
  | some f => simp [forceUnsuitsSource]

/-- Test 2 of R24: a change of kind under a contribution. -/
def State.kindHeld (s : State) (p : Nat) (k : Kind) : Prop :=
  k ≠ (s.point p).fields.kind ∧ s.slotsWhere (fun c => s.covers c.selector p) ≠ []

section
variable (s : State) (e : Entry) (p : Nat)

section
variable (f : PointFields)

theorem applySetPoint_forbidden (ha : (s.point p).binding.allows f.kind = false) :
    applySetPoint s e p f = s.drop e .kindMismatch := by
  simp [applySetPoint, ha]

variable (ha : (s.point p).binding.allows f.kind = true)
include ha

theorem applySetPoint_held (hk : s.kindHeld p f.kind) : applySetPoint s e p f = s.drop e .inUse := by
  obtain ⟨changed, covered⟩ := hk
  simp [applySetPoint, ha, changed, covered]

variable (hk : ¬ s.kindHeld p f.kind)
include hk

/-- What is left of R24 once tests 1 and 2 have passed: the force of a point of kind SOURCE. -/
theorem applySetPoint_free :
    applySetPoint s e p f =
      if f.kind = .source ∧ forceUnsuitsSource (s.force p) = true then s.drop e .inUse
      else s.setPoint p
        { s.point p with fields := f, retake := (s.point p).retake || f.kind != (s.point p).fields.kind } := by
  have test2 : ¬ (f.kind ≠ (s.point p).fields.kind ∧
      (!(s.slotsWhere fun c => s.covers c.selector p).isEmpty) = true) := by
    simpa [State.kindHeld] using hk
  unfold applySetPoint
  dsimp only
  rw [ha, if_neg (by decide), if_neg test2]

end

variable (b : Binding)

theorem applyBindPoint_forbidden (ha : b.allows (s.point p).fields.kind = false) :
    applyBindPoint s e p b = s.drop e .kindMismatch := by
  simp [applyBindPoint, ha]

variable (ha : b.allows (s.point p).fields.kind = true)
include ha

theorem applyBindPoint_conflict (k q : Nat) (hk : k ∈ b.outputs) (ho : s.occupant k = some q) (hq : q ≠ p) :
    applyBindPoint s e p b = s.drop e .bindConflict := by
  have taken : b.outputs.any (fun k => (s.occupant k).any fun q => q != p) = true :=
    List.any_eq_true.2 ⟨k, hk, by simp [ho, hq]⟩
  simp [applyBindPoint, ha, taken]

theorem applyBindPoint_free (hfree : ∀ k ∈ b.outputs, ∀ q, s.occupant k = some q → q = p) :
    applyBindPoint s e p b =
      ((s.setOccupants none (s.point p).binding.outputs).setOccupants (some p) b.outputs).setPoint p
        { s.point p with binding := b } := by
  have free : b.outputs.any (fun k => (s.occupant k).any fun q => q != p) = false := by
    refine List.any_eq_false.2 fun k hk => ?_
    cases ho : s.occupant k with
    | none => simp
    | some q => simp [hfree k hk q ho]
  simp [applyBindPoint, ha, free]

end

/-- Settles O38: each application row applies its entry first of all, and the entry does what its kind's lemma says. -/
theorem configurationEntriesApply : Obligations.ConfigurationEntriesApply := by
  intro s e rest due
  let u : State := { s with queue := rest }
  have row := s.applyRow_dueFirst e rest due
  refine ⟨fun p f hb ha hk hf => ?_, fun p b hb ha hfree => ?_, fun c knots hb => ?_, fun v hb => ?_, fun t f hb => ?_⟩
  · have open' : ¬ u.kindHeld p f.kind := fun held => hk.elim held.1 held.2
    have suits : ¬ (f.kind = .source ∧ forceUnsuitsSource (u.force p) = true) := fun ⟨source, bad⟩ => by
      have suits : forceUnsuitsSource (u.force p) = false := (forceUnsuitsSource_eq_false _).2 (hf source)
      exact Bool.false_ne_true (suits.symm.trans bad)
    refine row _ hb _ ?_
    rw [State.applyEntry, hb]
    exact (applySetPoint_free u e p f ha open').trans (if_neg suits)
  · refine row _ hb _ ?_
    rw [State.applyEntry, hb]
    exact applyBindPoint_free u e p b ha hfree
  · refine row _ hb _ ?_
    rw [State.applyEntry, hb]
    rfl
  · refine row _ hb _ ?_
    rw [State.applyEntry, hb]
    rfl
  · refine row _ hb _ ?_
    rw [State.applyEntry, hb]
    rfl

/-! ### The occupancy map (R21) -/

/-- The agreement is a matter of the bindings and of the map alone. -/
theorem OccupancyAgrees.congr {s t : State} (hp : ∀ p, (t.point p).binding = (s.point p).binding)
    (ho : ∀ k, t.occupant k = s.occupant k) (h : OccupancyAgrees s) : OccupancyAgrees t := fun p k => by
  rw [hp, ho]
  exact h p k

theorem State.occupant_setOccupants (s : State) (v : Option Nat) (ks : List Nat) (k : Nat) :
    (s.setOccupants v ks).occupant k = if k ∈ ks then v else s.occupant k := by
  obtain ⟨o, he, -, hg⟩ := s.setOccupants_spec v ks
  rw [he]
  exact hg k

theorem State.point_setOccupants (s : State) (v : Option Nat) (ks : List Nat) (p : Nat) :
    (s.setOccupants v ks).point p = s.point p := by
  obtain ⟨o, he, -, -⟩ := s.setOccupants_spec v ks
  rw [he]
  rfl

theorem State.occupant_setPoint (s : State) (p : Nat) (v : Point) (k : Nat) :
    (s.setPoint p v).occupant k = s.occupant k := rfl

/-- A point whose old outputs are emptied, and whose new ones are free or its own and come to name it, is bound to the
new ones: the old entries of every other point stand. -/
theorem OccupancyAgrees.rebind {s : State} (h : OccupancyAgrees s) (p : Nat) (b : Binding)
    (hfree : ∀ k ∈ b.outputs, ∀ q, s.occupant k = some q → q = p) :
    OccupancyAgrees (((s.setOccupants none (s.point p).binding.outputs).setOccupants (some p) b.outputs).setPoint p
      { s.point p with binding := b }) := by
  intro q k
  have agree := h q k
  have agreeP := h p k
  rw [State.occupant_setPoint, State.occupant_setOccupants, State.occupant_setOccupants]
  by_cases hq : q = p
  · subst hq
    rw [State.point_setPoint]
    by_cases hb : k ∈ b.outputs
    · simp [hb]
    · by_cases old : k ∈ (s.point q).binding.outputs
      · simp [hb, old]
      · simp [hb, old, ← agree]
  · rw [State.point_setPoint_other _ _ _ _ hq, State.point_setOccupants, State.point_setOccupants, agree]
    by_cases hb : k ∈ b.outputs
    · have notHere : s.occupant k ≠ some q := fun ho => hq (hfree k hb q ho)
      simp [hb, notHere, Ne.symm hq]
    · by_cases old : k ∈ (s.point p).binding.outputs
      · simp [hb, old, agreeP.1 old, Ne.symm hq]
      · simp [hb, old]

theorem OccupancyAgrees.applyBindPoint {s : State} (h : OccupancyAgrees s) (e : Entry) (p : Nat) (b : Binding) :
    OccupancyAgrees (applyBindPoint s e p b) := by
  by_cases ha : b.allows (s.point p).fields.kind = true
  · by_cases hfree : ∀ k ∈ b.outputs, ∀ q, s.occupant k = some q → q = p
    · rw [applyBindPoint_free s e p b ha hfree]
      exact h.rebind p b hfree
    · simp only [Classical.not_forall] at hfree
      obtain ⟨k, hk, q, ho, hq⟩ := hfree
      rw [applyBindPoint_conflict s e p b ha k q hk ho hq]
      exact .of_maps rfl rfl h
  · rw [applyBindPoint_forbidden s e p b (Bool.eq_false_iff.2 ha)]
    exact .of_maps rfl rfl h

/-- Going on with a frame start's work touches neither map. -/
theorem OccupancyAgrees.advance {s : State} (h : OccupancyAgrees s) : OccupancyAgrees s.advance := by
  have frame := (Advanced.advance s).frame
  exact .of_maps (by rw [frame]) (by rw [frame]) h

/-- Settles O39: the row of a BIND_POINT by its application alone, whatever the form of the stores; every step by what
every row keeps. -/
theorem bindingKeepsTheOccupancyMap : Obligations.BindingKeepsTheOccupancyMap := by
  refine ⟨fun s t e rest p b agrees due hb stepped => ?_,
    fun s t canonical agrees stepped => (step_sound s t stepped).occupancy canonical agrees⟩
  let u : State := { s with queue := rest }
  have applied : u.applyEntry e = applyBindPoint u e p b := by
    rw [State.applyEntry, hb]
  cases stepped.symm.trans (s.applyRow_dueFirst e rest due _ hb _ applied)
  have before : OccupancyAgrees u := .of_maps rfl rfl agrees
  exact (before.applyBindPoint e p b).advance

/-! ### Drops (R90, R91) -/

section
variable (s : State) (e : Entry)

theorem State.drop_event (r : FailReason) :
    (s.drop e r).event 6 = ⟨true, saturate 255 (s.event 6).count⟩ := by
  have raised := s.event_raise .applyFail 6
  exact raised.trans (if_pos rfl)

theorem State.drop_applyFails (r : FailReason) :
    ((s.drop e r).source e.source).applyFails = saturate 65535 (s.source e.source).applyFails := by
  have stored := State.source_setSource (s.raise .applyFail) e.source
    { s.source e.source with applyFails := saturate 65535 (s.source e.source).applyFails }
  exact congrArg Source.applyFails stored

theorem applyTake_lost (hd : Handle) (c : Contribution) (hm : s.matching hd = some c)
    (lost : (s.source c.owner).state = .lost ∧ c.policy = .release) :
    applyTake s e hd = (s.drop e .lost).free hd.slot := by
  rw [applyTake, hm]
  exact if_pos lost

theorem applyRelease_nothing (a : Address) (fade : Option Nat) (hf : s.find e.source a = none) :
    applyRelease s e a fade = s.drop e .notFound := by
  rw [applyRelease, hf]

theorem applyPaused_nothing (a : Address) (paused : Bool) (hf : s.find e.source a = none) :
    applyPaused s e a paused = s.drop e .notFound := by
  rw [applyPaused, hf]

theorem applyPaused_still (a : Address) (paused : Bool) (k : Nat) (c : Contribution)
    (hf : s.find e.source a = some (k, c)) (hp : c.phase = .pending ∨ c.phase = .held) :
    applyPaused s e a paused = s.drop e .inUse := by
  rw [applyPaused, hf]
  refine if_neg fun fading => ?_
  rcases hp with hp | hp <;> simp [hp] at fading

theorem applyForceSet_foreign (x : Selector) (m : ForceMode) (v : LevelSpec) (hx : s.forceForeign e.source x = true) :
    applyForceSet s e x m v = s.drop e .forceOwner := if_pos hx

theorem applyForceSet_unsuited (x : Selector) (m : ForceMode) (v : LevelSpec) (hx : s.forceForeign e.source x = false)
    (hu : s.forceUnsuits x m v = true) : applyForceSet s e x m v = s.drop e .kindMismatch := by
  rw [applyForceSet, hx, hu]
  rfl

theorem applyForceClear_foreign (x : Selector) (hx : s.forceForeign e.source x = true) :
    applyForceClear s e x = s.drop e .forceOwner := if_pos hx

theorem applyFreeze_limit (g : Nat) (hg : 255 ≤ s.freezeCount g) : applyFreeze s e g = s.drop e .freezeLimit := if_pos hg

theorem applyThaw_none (g : Nat) (hg : s.freezeCount g = 0) : applyThaw s e g = s.drop e .notFrozen := if_pos hg

theorem applyPlatePlay_undefined (p : Nat) (hp : (s.plate p).state = .undefined) :
    applyPlatePlay s e p = s.drop e .plateUndefined := by
  simp only [applyPlatePlay, hp]

theorem applyPlateStop_undefined (p : Nat) (hp : (s.plate p).state = .undefined) :
    applyPlateStop s e p = s.drop e .plateUndefined := by
  simp only [applyPlateStop, hp]

end

/-! ### What an application leaves waiting (R85, R87) -/

theorem State.release_queue (s : State) (k L : Nat) : (s.release k L).queue = s.queue := by
  cases hr : (s.slot k).record with
  | none => rw [State.release, hr]
  | some c =>
    have unnamed : (s.unname c).queue = s.queue := by rw [State.unname_frame]
    by_cases hL : L = 0
    · subst hL
      rw [s.release_frees c k hr, State.free_queue]
      exact unnamed
    · rw [s.release_fades c k L hr hL]
      exact unnamed

theorem State.setOccupants_queue (s : State) (v : Option Nat) (ks : List Nat) : (s.setOccupants v ks).queue = s.queue :=
  State.each_same State.queue (fun _ _ => by rfl) s ks

theorem applyTake_queue (s : State) (e : Entry) (hd : Handle) : (applyTake s e hd).queue = s.queue := by
  unfold applyTake
  split
  · rfl
  · split
    · exact State.free_queue _ _
    · rename_i c _ _
      have succeeded (t : State) : (t.succeed c.owner c.name c.fadeIn).queue = t.queue := by
        unfold State.succeed
        split
        · rfl
        · split
          · exact State.release_queue _ _ _
          · rfl
      have taken (t : State) (h : t.queue = s.queue) :
          (if c.name = 0 then t else t.setNamed c.owner c.name (some hd.slot)).queue = s.queue := by
        split
        · exact h
        · exact h
      refine taken _ ((succeeded _).trans ?_)
      rw [State.setRecord_queue, State.setWords_frame]

/-- A RELEASE of a PENDING contribution withdraws its TAKE, and no other application takes an entry off the queue. -/
theorem State.applyEntry_queue (s : State) (e : Entry) :
    (s.applyEntry e).queue = s.queue ∨
      (∃ a fade, e.body = .release a fade) ∧ ∃ hd, (s.applyEntry e).queue = s.queue.filter fun x => !x.isTakeOf hd := by
  have paused (a : Address) (p : Bool) : (applyPaused s e a p).queue = s.queue := by
    unfold applyPaused
    split
    · rfl
    · split <;> rfl
  unfold State.applyEntry
  cases hb : e.body with
  | release a fade =>
    dsimp only
    unfold applyRelease
    split
    · exact .inl rfl
    · split
      · exact .inr ⟨⟨a, fade, rfl⟩, _, (State.free_queue _ _).trans (State.withdrawTake_queue _ _)⟩
      · exact .inl (State.release_queue _ _ _)
      · exact .inl (State.release_queue _ _ _)
      · split
        · exact .inl (State.free_queue _ _)
        · exact .inl rfl
  | take hd => exact .inl (applyTake_queue s e hd)
  | releaseSource n fade => exact .inl (State.each_same State.queue (fun t k => State.release_queue t k _) s _)
  | pause a => exact .inl (paused a true)
  | resume a => exact .inl (paused a false)
  | setPoint p f =>
    left
    dsimp only
    unfold applySetPoint
    dsimp only
    repeat' split
    all_goals rfl
  | bindPoint p b =>
    left
    dsimp only
    unfold applyBindPoint
    dsimp only
    split
    · rfl
    · split
      · rfl
      · exact (State.setOccupants_queue _ _ _).trans (State.setOccupants_queue _ _ _)
  | forceSet x m v =>
    left
    dsimp only
    unfold applyForceSet
    split
    · rfl
    · split
      · rfl
      · exact State.each_same State.queue (fun _ _ => by rfl) s _
  | forceClear x =>
    left
    dsimp only
    unfold applyForceClear
    split
    · rfl
    · exact State.each_same State.queue (fun _ _ => by rfl) s _
  | freeze g => exact .inl (by dsimp only; unfold applyFreeze; split <;> rfl)
  | thaw g => exact .inl (by dsimp only; unfold applyThaw; split <;> rfl)
  | masterSet m v f => exact .inl (by dsimp only; unfold applyMasterSet; dsimp only; split <;> rfl)
  | platePlay p => exact .inl (by dsimp only; unfold applyPlatePlay; dsimp only; split <;> rfl)
  | plateStop p => exact .inl (by dsimp only; unfold applyPlateStop; dsimp only; split <;> rfl)
  | loadCurve | setWorklightLevel | setTile => exact .inl rfl

/-- The entries that wait without being due. -/
def notDue (q : List Entry) : List Entry := q.filter fun e => !e.due

theorem takeFirstDue_notDue (q : List Entry) (e : Entry) (rest : List Entry) (h : takeFirstDue q = some (e, rest)) :
    notDue rest = notDue q := by
  induction q generalizing e rest with
  | nil => cases h
  | cons d ds ih =>
    unfold takeFirstDue at h
    split at h
    · rename_i hd
      cases h
      simp [notDue, hd]
    · rename_i hd
      obtain ⟨⟨f, fs⟩, hr, heq⟩ := Option.map_eq_some_iff.1 h
      cases heq
      have tail := ih f fs hr
      simp [notDue, hd] at tail ⊢
      exact tail

/-- What an application leaves of a queue: only entries of it, those that are not due in their order, every one of them
but TAKE entries, and TAKE entries too where no due entry is a RELEASE. -/
structure Waits (q r : List Entry) : Prop where
  mem : ∀ x ∈ r, x ∈ q
  order : (notDue r).Sublist (notDue q)
  others : ∀ x ∈ q, x.due = false → (∀ hd, x.body ≠ .take hd) → x ∈ r
  all : (∀ x ∈ q, x.due = true → ∀ a fade, x.body ≠ .release a fade) → notDue r = notDue q

theorem Waits.refl (q : List Entry) : Waits q q := ⟨fun _ h => h, .refl _, fun _ h _ _ => h, fun _ => rfl⟩

theorem Waits.trans {q r t : List Entry} (h : Waits q r) (g : Waits r t) : Waits q t :=
  ⟨fun x hx => h.mem x (g.mem x hx), g.order.trans h.order,
    fun x hx hd ht => g.others x (h.others x hx hd ht) hd ht,
    fun hr => (g.all fun x hx => hr x (h.mem x hx)).trans (h.all hr)⟩

theorem mem_notDue (q : List Entry) (x : Entry) : x ∈ notDue q ↔ x ∈ q ∧ x.due = false := by
  simp [notDue]

theorem State.applyNext_waits (s : State) : Waits s.queue s.applyNext.queue := by
  unfold State.applyNext
  split
  · exact .refl _
  · rename_i e rest first
    obtain ⟨front, due, -, left⟩ := takeFirstDue_spec _ _ _ first
    have same := takeFirstDue_notDue _ _ _ first
    have kept : Waits s.queue rest := by
      refine ⟨left, same ▸ .refl _, fun x hx hd _ => ?_, fun _ => same⟩
      exact ((mem_notDue rest x).1 (same ▸ (mem_notDue s.queue x).2 ⟨hx, hd⟩)).1
    rcases State.applyEntry_queue { s with queue := rest } e with stays | ⟨⟨a, fade, hb⟩, hd, withdrawn⟩
    · rw [stays]
      exact kept
    · rw [withdrawn]
      have fewer : (rest.filter fun x => !x.isTakeOf hd).Sublist rest := List.filter_sublist
      refine ⟨fun x hx => left x (fewer.subset hx), same ▸ fewer.filter _, fun x hx hdue ht => ?_, fun none => ?_⟩
      · exact List.mem_filter.2 ⟨kept.others x hx hdue ht, by simp [Entry.isTakeOf, ht hd]⟩
      · exact absurd hb (none e front due a fade)

theorem State.applyDue_waits (s : State) (n : Nat) : Waits s.queue (s.applyDue n).queue := by
  induction n generalizing s with
  | zero => exact .refl _
  | succ n ih => exact s.applyNext_waits.trans (ih _)

/-- As many applications as the queue has entries leave no due entry (R85). -/
theorem State.applyDue_all (s : State) : (s.applyDue s.queue.length).noneDue = true := by
  have all : s.dueCount ≤ s.queue.length := List.countP_le_length
  have applied := s.dueCount_applyDue s.queue.length
  exact (State.noneDue_iff _).2 (by omega)

theorem State.notDue_of_noneDue (s : State) (h : s.noneDue = true) : notDue s.queue = s.queue := by
  refine List.filter_eq_self.2 fun x hx => ?_
  simp only [State.noneDue, Bool.not_eq_true', List.any_eq_false] at h
  simpa using h x hx

/-- Settles O42: each test's drop by the lemma of its kind, and the queue by what each application leaves of it. -/
theorem applicationDropsAndEmptiesTheDueSet : Obligations.ApplicationDropsAndEmptiesTheDueSet := by
  refine ⟨fun s e rest due => ?_, fun s => ?_⟩
  · intro u
    have row (b : EntryBody) (hb : e.body = b) (t : State) (ht : u.applyEntry e = t) :=
      s.applyRow_dueFirst e rest due b hb t ht
    refine ⟨fun r => ⟨u.drop_event e r, u.drop_applyFails e r, rfl⟩, fun p f hb ha => ?_, fun p f hb ha hk hc => ?_,
      fun p f x hb ha hk source hx bad => ?_, fun p b hb ha => ?_, fun p b k q hb ha hk ho hq => ?_,
      fun hd c hb hm lost release => ?_, fun a none => ⟨fun fade hb => ?_, fun hb => ?_, fun hb => ?_⟩,
      fun a k c found hp => ⟨fun hb => ?_, fun hb => ?_⟩, fun x foreign => ⟨fun m v hb => ?_, fun hb => ?_⟩,
      fun x m v hb own bad => ?_, fun p hp => ⟨fun hb => ?_, fun hb => ?_⟩, fun g hb hg => ?_, fun g hb hg => ?_⟩
    all_goals
      refine row _ hb _ ?_
      rw [State.applyEntry, hb]
    · exact applySetPoint_forbidden u e p f ha
    · exact applySetPoint_held u e p f ha ⟨hk, hc⟩
    · have unsuited : forceUnsuitsSource (u.force p) = true := by
        refine (Bool.eq_false_or_eq_true _).resolve_right fun suits => ?_
        obtain ⟨park, low⟩ := (forceUnsuitsSource_eq_false _).1 suits x hx
        exact bad.elim (· park) (Nat.not_lt.2 low)
      exact (applySetPoint_free u e p f ha fun held => hk.elim held.1 held.2).trans (if_pos ⟨source, unsuited⟩)
    · exact applyBindPoint_forbidden u e p b ha
    · exact applyBindPoint_conflict u e p b ha k q hk ho hq
    · exact applyTake_lost u e hd c hm ⟨lost, release⟩
    · exact applyRelease_nothing u e a fade none
    · exact applyPaused_nothing u e a true none
    · exact applyPaused_nothing u e a false none
    · exact applyPaused_still u e a true k c found hp
    · exact applyPaused_still u e a false k c found hp
    · exact applyForceSet_foreign u e x m v foreign
    · exact applyForceClear_foreign u e x foreign
    · exact applyForceSet_unsuited u e x m v own bad
    · exact applyPlatePlay_undefined u e p hp
    · exact applyPlateStop_undefined u e p hp
    · exact applyFreeze_limit u e g hg
    · exact applyThaw_none u e g hg
  · have waits := s.applyDue_waits s.queue.length
    have none := s.applyDue_all
    have itself := State.notDue_of_noneDue _ none
    exact ⟨none, itself ▸ waits.order, waits.others, fun releases => itself.symm.trans (waits.all releases)⟩

end Sys2Proof.Machine
end

section
/-! PROOF. Stages 1 to 4 of a point (R33, R56, R101 to R106): the contributions that cover it and their levels, the member
that decides the base, the fading-out ones in ascending sequence, and the winner. -/

namespace Sys2Proof.Machine

/-! ### What covers a point (R33, R101, R103) -/

/-- A selector covers a point at the one position that leads to it (R33). -/
theorem State.positionOf_eq_some (s : State) (x : Selector) (p i : Nat) (hs : 1 ≤ (s.group x.group).stride) :
    s.positionOf x p = some i ↔ i < x.count ∧ s.coveredPoint x i = p := by
  have distance : (s.coveredPoint x i - s.coveredPoint x 0) / (s.group x.group).stride = i := by
    have steps : s.coveredPoint x i = s.coveredPoint x 0 + i * (s.group x.group).stride := by
      simp only [State.coveredPoint, Nat.add_mul]
      omega
    rw [steps, Nat.add_sub_cancel_left, Nat.mul_div_cancel _ hs]
  unfold State.positionOf
  dsimp only
  constructor
  · intro found
    split at found
    · rename_i covers
      cases found
      exact covers
    · cases found
  · rintro ⟨below, rfl⟩
    rw [distance, if_pos ⟨below, rfl⟩]

theorem State.mem_occupiedSlots (s : State) (k : Nat) :
    k ∈ s.occupiedSlots ↔ k < 192 ∧ (s.slot k).record.isSome = true := by
  simp [State.occupiedSlots, State.slotsWhere, Option.isSome_iff_exists]

/-- A guarded image of an option is there where the guard holds and the option is. -/
theorem ite_map_eq_some {α β : Type} {guard : Prop} [Decidable guard] {o : Option α} {g : α → β} {x : β} :
    (if guard then o.map g else none) = some x ↔ guard ∧ ∃ i, o = some i ∧ x = g i := by
  constructor
  · intro found
    split at found
    · rename_i holds
      obtain ⟨i, hi, image⟩ := Option.map_eq_some_iff.1 found
      exact ⟨holds, i, hi, image.symm⟩
    · cases found
  · rintro ⟨holds, i, rfl, rfl⟩
    rw [if_pos holds]
    rfl

theorem State.liveCover_eq_some (s : State) (p k : Nat) (x : Cover) :
    s.liveCover p k = some x ↔
      ∃ c i, (s.slot k).record = some c ∧ (c.phase = .fadingIn ∨ c.phase = .held) ∧ s.positionOf c.selector p = some i ∧
        x = ⟨s.handleOf k, c.priority, c.sequence.getD 0, s.effectiveLevel c i p, 0, 1⟩ := by
  unfold State.liveCover
  cases (s.slot k).record with
  | none => exact ⟨fun h => (nomatch h), fun ⟨_, _, h, _⟩ => (nomatch h)⟩
  | some c =>
    refine ite_map_eq_some.trans ⟨?_, ?_⟩
    · rintro ⟨live, i, covers, rfl⟩
      exact ⟨c, i, rfl, live, covers, rfl⟩
    · rintro ⟨_, i, ⟨⟩, live, covers, rfl⟩
      exact ⟨live, i, covers, rfl⟩

theorem State.fadingCover_eq_some (s : State) (p k : Nat) (x : Cover) :
    s.fadingCover p k = some x ↔
      ∃ c i, (s.slot k).record = some c ∧ c.phase = .fadingOut ∧ s.positionOf c.selector p = some i ∧
        x = ⟨s.handleOf k, c.priority, c.sequence.getD 0, s.word c.chain i, c.remaining, c.fadeOut⟩ := by
  unfold State.fadingCover
  cases (s.slot k).record with
  | none => exact ⟨fun h => (nomatch h), fun ⟨_, _, h, _⟩ => (nomatch h)⟩
  | some c =>
    refine ite_map_eq_some.trans ⟨?_, ?_⟩
    · rintro ⟨fading, i, covers, rfl⟩
      exact ⟨c, i, rfl, fading, covers, rfl⟩
    · rintro ⟨_, i, ⟨⟩, fading, covers, rfl⟩
      exact ⟨fading, i, covers, rfl⟩

/-- The covers of the occupied slots, each of which names its slot, name each slot once and in slot order. -/
theorem State.covers_pairwise (s : State) (cover : Nat → Option Cover)
    (own : ∀ k x, cover k = some x → x.handle.slot = k) :
    ((s.occupiedSlots.filterMap cover).map fun x => x.handle.slot).Pairwise (· < ·) := by
  have rising : s.occupiedSlots.Pairwise (· < ·) := List.pairwise_lt_range.filter _
  refine List.pairwise_map.2 (List.pairwise_filterMap.2 (rising.imp fun {j k} below x hx y hy => ?_))
  rw [own j x hx, own k y hy]
  exact below

/-- A cover that only occupied slots have is listed from the 192 slots. -/
theorem State.mem_covers (s : State) (cover : Nat → Option Cover) (record : Nat → Contribution → Nat → Cover → Prop)
    (covers : ∀ k x, cover k = some x ↔ ∃ c i, (s.slot k).record = some c ∧ record k c i x) (x : Cover) :
    x ∈ s.occupiedSlots.filterMap cover ↔ ∃ k c i, k < 192 ∧ (s.slot k).record = some c ∧ record k c i x := by
  simp only [List.mem_filterMap, s.mem_occupiedSlots, covers]
  constructor
  · rintro ⟨k, ⟨hk, -⟩, c, i, hr, hx⟩
    exact ⟨k, c, i, hk, hr, hx⟩
  · rintro ⟨k, c, i, hk, hr, hx⟩
    exact ⟨k, ⟨hk, by rw [hr]; rfl⟩, c, i, hr, hx⟩

/-! ### The levels (R56, R101) -/

section
variable (s : State) (c : Contribution) (i p : Nat)

theorem State.target_level (v : Nat) (hf : c.form = .spec (.level v)) : s.target c i = v := by
  rw [State.target, hf]
  rfl

theorem State.target_fan (b : Nat) (d : Int) (hf : c.form = .spec (.fan b d)) :
    s.target c i = clampLevel ((b : Int) + i * d) := by
  rw [State.target, hf]
  rfl

theorem State.target_list (hf : c.form = .list) : s.target c i = s.word c.chain (c.selector.count + i) := by
  rw [State.target, hf]

theorem State.effectiveLevel_target (h : c.phase = .held ∨ (s.point p).fields.kind = .source) :
    s.effectiveLevel c i p = s.target c i := by
  refine if_neg fun ⟨fading, shaped⟩ => ?_
  rcases h with held | source
  · rw [held] at fading
    cases fading
  · exact shaped source

theorem State.effectiveLevel_fading (hp : c.phase = .fadingIn) (hk : (s.point p).fields.kind ≠ .source) :
    s.effectiveLevel c i p = mixLevel (s.word c.chain i) (s.target c i) c.elapsed c.fadeIn := if_pos ⟨hp, hk⟩

end

/-! ### The order of the sequences (R55) -/

/-- How far a sequence follows a number. -/
def Cover.age (base : Word) (c : Cover) : Nat := (c.sequence - base).toNat

/-- Where the sequences of `l` follow one number by less than half of their range, they are in the order of their
distances from it (R55, log 25). -/
def Follow (base : Word) (l : List Cover) : Prop := ∀ c ∈ l, c.age base < 2147483648

theorem isBefore_age (base : Word) (a b : Cover) (ha : a.age base < 2147483648) (hb : b.age base < 2147483648) :
    isBefore a.sequence b.sequence = true ↔ a.age base < b.age base := by
  have difference : a.sequence - b.sequence = (a.sequence - base) - (b.sequence - base) := by bv_omega
  unfold Cover.age at ha hb ⊢
  rw [isBefore_iff, signedDiff_eq, difference, BitVec.toNat_sub]
  split <;> omega

theorem not_isBefore_age (base : Word) (a b : Cover) (ha : a.age base < 2147483648) (hb : b.age base < 2147483648) :
    isBefore a.sequence b.sequence = false ↔ b.age base ≤ a.age base := by
  rw [← Bool.not_eq_true, isBefore_age base a b ha hb, Nat.not_lt]

/-! ### The member that decides the base (R102) -/

/-- `d` yields to `c` by priority, and in one band by level where the point is of kind INTENSITY. -/
def Cover.yields (kind : Kind) (d c : Cover) : Prop :=
  d.priority < c.priority ∨ d.priority = c.priority ∧ (kind = .intensity → d.level ≤ c.level)

/-- As `yields`, and where neither tells them apart `d` is not the later of the two. -/
def Cover.yieldsTo (kind : Kind) (base : Word) (d c : Cover) : Prop :=
  d.priority < c.priority ∨ d.priority = c.priority ∧
    (kind = .intensity ∧ d.level < c.level ∨ (kind = .intensity → d.level = c.level) ∧ d.age base ≤ c.age base)

theorem Cover.yields_refl (kind : Kind) (c : Cover) : c.yields kind c := .inr ⟨rfl, fun _ => Nat.le_refl _⟩

theorem Cover.yieldsTo_refl (kind : Kind) (base : Word) (c : Cover) : c.yieldsTo kind base c :=
  .inr ⟨rfl, .inr ⟨fun _ => rfl, Nat.le_refl _⟩⟩

theorem Cover.yields_trans {kind : Kind} {a b c : Cover} (h : a.yields kind b) (g : b.yields kind c) :
    a.yields kind c := by
  unfold Cover.yields at *
  by_cases hk : kind = .intensity
  · simp only [hk, true_implies] at *
    omega
  · simp only [hk, false_implies, and_true] at *
    omega

theorem Cover.yieldsTo_trans {kind : Kind} {base : Word} {a b c : Cover} (h : a.yieldsTo kind base b)
    (g : b.yieldsTo kind base c) : a.yieldsTo kind base c := by
  unfold Cover.yieldsTo at *
  by_cases hk : kind = .intensity
  · simp only [hk, true_implies, true_and] at *
    omega
  · simp only [hk, false_implies, false_and, true_and, false_or] at *
    omega

/-- Of two members the better one is one of them. -/
theorem betterCover_or (kind : Kind) (a b : Cover) : betterCover kind a b = a ∨ betterCover kind a b = b := by
  unfold betterCover
  repeat' split
  all_goals simp

/-- Both yield to the better one. -/
theorem betterCover_yields (kind : Kind) (a b : Cover) :
    a.yields kind (betterCover kind a b) ∧ b.yields kind (betterCover kind a b) := by
  unfold betterCover Cover.yields
  by_cases hk : kind = .intensity
  · simp only [hk, true_implies, true_and]
    repeat' split
    all_goals omega
  · simp only [hk, false_implies, false_and, and_true, if_false]
    repeat' split
    all_goals omega

theorem betterCover_yieldsTo (kind : Kind) (base : Word) (a b : Cover) (ha : a.age base < 2147483648)
    (hb : b.age base < 2147483648) :
    a.yieldsTo kind base (betterCover kind a b) ∧ b.yieldsTo kind base (betterCover kind a b) := by
  unfold betterCover Cover.yieldsTo
  simp only [isBefore_age base a b ha hb]
  by_cases hk : kind = .intensity
  · simp only [hk, true_implies, true_and]
    repeat' split
    all_goals omega
  · simp only [hk, false_implies, false_and, if_false, true_and, false_or]
    repeat' split
    all_goals omega

/-- Every member of a set yields to the one that decides the base, in a relation that is transitive and in which two
members yield to the better of them. -/
theorem foldl_betterCover (kind : Kind) (yield : Cover → Cover → Prop) (within : Cover → Prop)
    (refl : ∀ a, yield a a) (trans : ∀ a b c, yield a b → yield b c → yield a c)
    (better : ∀ a b, within a → within b →
      yield a (betterCover kind a b) ∧ yield b (betterCover kind a b)) (c : Cover) (cs : List Cover)
    (hw : ∀ d ∈ c :: cs, within d) :
    cs.foldl (betterCover kind) c ∈ c :: cs ∧ ∀ d ∈ c :: cs, yield d (cs.foldl (betterCover kind) c) := by
  induction cs generalizing c with
  | nil => simp [refl]
  | cons b bs ih =>
    obtain ⟨hc, hb, hbs⟩ : within c ∧ within b ∧ ∀ d ∈ bs, within d := by simpa using hw
    have chosen : within (betterCover kind c b) := by
      rcases betterCover_or kind c b with e | e <;> rw [e] <;> assumption
    obtain ⟨mem, yields⟩ := ih (betterCover kind c b) (by simpa using ⟨chosen, hbs⟩)
    have top := yields _ List.mem_cons_self
    refine ⟨?_, fun d hd => ?_⟩
    · rw [List.foldl_cons]
      rcases List.mem_cons.1 mem with same | later
      · rw [same]
        rcases betterCover_or kind c b with e | e <;> simp [e]
      · simp [later]
    · rcases List.mem_cons.1 hd with rfl | hd
      · exact trans _ _ _ (better _ _ hc hb).1 top
      · rcases List.mem_cons.1 hd with rfl | hd
        · exact trans _ _ _ (better _ _ hc hb).2 top
        · exact yields d (List.mem_cons_of_mem _ hd)

section
variable {kind : Kind} {live : List Cover} {c : Cover} (ht : topCover kind live = some c)
include ht

theorem topCover_spec (yield : Cover → Cover → Prop) (within : Cover → Prop)
    (refl : ∀ a, yield a a) (trans : ∀ a b c, yield a b → yield b c → yield a c)
    (better : ∀ a b, within a → within b → yield a (betterCover kind a b) ∧ yield b (betterCover kind a b))
    (hw : ∀ d ∈ live, within d) : c ∈ live ∧ ∀ d ∈ live, yield d c := by
  cases live with
  | nil => cases ht
  | cons b bs =>
    cases ht
    exact foldl_betterCover kind yield within refl trans better b bs hw

theorem topCover_mem_yields : c ∈ live ∧ ∀ d ∈ live, d.yields kind c :=
  topCover_spec ht (Cover.yields kind) (fun _ => True) (Cover.yields_refl kind) (fun _ _ _ => Cover.yields_trans)
    (fun a b _ _ => betterCover_yields kind a b) fun _ _ => trivial

theorem topCover_yieldsTo (base : Word) (follow : Follow base live) : ∀ d ∈ live, d.yieldsTo kind base c :=
  (topCover_spec ht (Cover.yieldsTo kind base) (fun c => c.age base < 2147483648) (Cover.yieldsTo_refl kind base)
    (fun _ _ _ => Cover.yieldsTo_trans) (fun a b => betterCover_yieldsTo kind base a b) follow).2

/-- No member of the deciding one's priority, for INTENSITY of its level too, is later. -/
theorem topCover_latest (base : Word) (follow : Follow base live) (d : Cover) (hd : d ∈ live)
    (hp : d.priority = c.priority) (hl : kind = .intensity → d.level = c.level) :
    isBefore c.sequence d.sequence = false := by
  have mem := (topCover_mem_yields ht).1
  refine (not_isBefore_age base c d (follow c mem) (follow d hd)).2 ?_
  rcases topCover_yieldsTo ht base follow d hd with lower | ⟨-, ⟨hk, below⟩ | ⟨-, older⟩⟩
  · exact absurd hp (Nat.ne_of_lt lower)
  · exact absurd (hl hk) (Nat.ne_of_lt below)
  · exact older

theorem mergeCovers_top (home : Nat) : mergeCovers kind home live [] = ⟨c.level, some c.handle⟩ := by
  rw [mergeCovers, ht]
  rfl

end

theorem topCover_eq_none (kind : Kind) (live : List Cover) : topCover kind live = none ↔ live = [] := by
  cases live <;> simp [topCover]

theorem mergeCovers_nobody (kind : Kind) (home : Nat) : mergeCovers kind home [] [] = ⟨home, none⟩ := rfl

/-! ### The fading-out ones in ascending sequence (R103) -/

theorem insertBySequence_perm (c : Cover) (l : List Cover) : (insertBySequence c l).Perm (c :: l) := by
  induction l with
  | nil => exact .refl _
  | cons d ds ih =>
    unfold insertBySequence
    split
    · exact .refl _
    · exact (ih.cons d).trans (.swap c d ds)

theorem bySequence_perm (l : List Cover) : (bySequence l).Perm l := by
  induction l with
  | nil => exact .refl _
  | cons c cs ih => exact (insertBySequence_perm c _).trans (ih.cons c)

theorem insertBySequence_ascends (base : Word) (c : Cover) (l : List Cover) (follow : Follow base (c :: l))
    (ascends : l.Pairwise fun a b => a.age base ≤ b.age base) :
    (insertBySequence c l).Pairwise fun a b => a.age base ≤ b.age base := by
  induction l with
  | nil => exact List.pairwise_singleton _ _
  | cons d ds ih =>
    obtain ⟨hc, hd, hds⟩ : c.age base < 2147483648 ∧ d.age base < 2147483648 ∧ Follow base ds := by
      simpa [Follow] using follow
    obtain ⟨least, rest⟩ := List.pairwise_cons.1 ascends
    unfold insertBySequence
    split
    · rename_i before
      have below := (isBefore_age base c d hc hd).1 before
      refine List.pairwise_cons.2 ⟨fun x hx => ?_, ascends⟩
      rcases List.mem_cons.1 hx with rfl | hx
      · omega
      · have := least x hx
        omega
    · rename_i after
      have above := (not_isBefore_age base c d hc hd).1 (Bool.eq_false_iff.2 after)
      refine List.pairwise_cons.2 ⟨fun x hx => ?_, ih (by simpa [Follow] using ⟨hc, hds⟩) rest⟩
      rcases List.mem_cons.1 ((insertBySequence_perm c ds).subset hx) with rfl | hx
      · exact above
      · exact least x hx

theorem bySequence_ascends (base : Word) (l : List Cover) (follow : Follow base l) :
    (bySequence l).Pairwise fun a b => isBefore b.sequence a.sequence = false := by
  have ascends : (bySequence l).Pairwise fun a b => a.age base ≤ b.age base := by
    induction l with
    | nil => exact .nil
    | cons c cs ih =>
      have rest : Follow base cs := fun x hx => follow x (List.mem_cons_of_mem _ hx)
      refine insertBySequence_ascends base c _ (fun x hx => ?_) (ih rest)
      exact follow x (((bySequence_perm cs).cons c).subset hx)
  have within (x : Cover) (hx : x ∈ bySequence l) : x.age base < 2147483648 := follow x ((bySequence_perm l).subset hx)
  exact ascends.imp_of_mem fun ha hb le => (not_isBefore_age base _ _ (within _ hb) (within _ ha)).2 le

/-! ### Levels and the winner (R103 to R106) -/

theorem mergeCovers_eq_foldl (kind : Kind) (home : Nat) (live fading : List Cover) :
    mergeCovers kind home live fading =
      (bySequence fading).foldl (fadeStep kind (topCover kind live)) (mergeCovers kind home live []) := rfl

theorem fadeStep_level (kind : Kind) (top : Option Cover) (x : Merge) (c : Cover) :
    (fadeStep kind top x c).level = fadedLevel kind top x.level c := by
  unfold fadeStep
  dsimp only
  split
  · rename_i same
    exact same.symm
  · rfl

theorem fadeStep_same (kind : Kind) (top : Option Cover) (x : Merge) (c : Cover)
    (h : fadedLevel kind top x.level c = x.level) : fadeStep kind top x c = x := if_pos h

theorem fadeStep_moves (kind : Kind) (top : Option Cover) (x : Merge) (c : Cover)
    (h : fadedLevel kind top x.level c ≠ x.level) : (fadeStep kind top x c).winner = some c.handle := by
  rw [fadeStep, if_neg h]

/-- A fading-out contribution leaves B, or takes it to the level it brings or to the greater of the two. -/
theorem fadedLevel_le (kind : Kind) (top : Option Cover) (b : Nat) (c : Cover) :
    fadedLevel kind top b c ≤ max b (fadeValue kind b c) := by
  unfold fadedLevel
  dsimp only
  split
  · omega
  · repeat' split
    all_goals omega

theorem fadeValue_le (kind : Kind) (b : Nat) (c : Cover) (hb : b ≤ 65535) (hc : c.level ≤ 65535) (h1 : 1 ≤ c.length)
    (hr : c.remaining ≤ c.length) : fadeValue kind b c ≤ 65535 := by
  unfold fadeValue
  split
  · exact hc
  · exact Nat.le_trans (mixLevel_between b c.level c.remaining h1 hr).2 (Nat.max_le.2 ⟨hb, hc⟩)

theorem foldl_fadeStep_le (kind : Kind) (top : Option Cover) (l : List Cover) (x : Merge) (hx : x.level ≤ 65535)
    (hl : ∀ c ∈ l, c.level ≤ 65535 ∧ 1 ≤ c.length ∧ c.remaining ≤ c.length) :
    (l.foldl (fadeStep kind top) x).level ≤ 65535 := by
  induction l generalizing x with
  | nil => exact hx
  | cons c cs ih =>
    obtain ⟨⟨level, length, remaining⟩, rest⟩ := List.forall_mem_cons.1 hl
    refine ih _ ?_ rest
    have brings := fadeValue_le kind x.level c hx level length remaining
    rw [fadeStep_level]
    exact Nat.le_trans (fadedLevel_le ..) (Nat.max_le.2 ⟨hx, brings⟩)

theorem mergeCovers_level_le (kind : Kind) (home : Nat) (live fading : List Cover) (hh : home ≤ 65535)
    (hl : ∀ c ∈ live, c.level ≤ 65535)
    (hf : ∀ c ∈ fading, c.level ≤ 65535 ∧ 1 ≤ c.length ∧ c.remaining ≤ c.length) :
    (mergeCovers kind home live fading).level ≤ 65535 := by
  rw [mergeCovers_eq_foldl]
  refine foldl_fadeStep_le _ _ _ _ ?_ fun c hc => hf c ((bySequence_perm fading).subset hc)
  cases ht : topCover kind live with
  | none =>
    rw [(topCover_eq_none kind live).1 ht]
    exact hh
  | some c =>
    rw [mergeCovers_top ht]
    exact hl c (topCover_mem_yields ht).1

/-- A winner is not lost: a step names another or leaves the one there is. -/
theorem foldl_fadeStep_winner (kind : Kind) (top : Option Cover) (l : List Cover) (x : Merge) (hx : x.winner ≠ none) :
    (l.foldl (fadeStep kind top) x).winner ≠ none := by
  induction l generalizing x with
  | nil => exact hx
  | cons c cs ih =>
    refine ih _ ?_
    by_cases h : fadedLevel kind top x.level c = x.level
    · rw [fadeStep_same _ _ _ _ h]
      exact hx
    · rw [fadeStep_moves _ _ _ _ h]
      simp

/-- Over a point that no live contribution covers there is no winner exactly where no fading-out one moves the level. -/
theorem foldl_fadeStep_nobody (kind : Kind) (l : List Cover) (b : Nat) :
    (l.foldl (fadeStep kind none) ⟨b, none⟩).winner = none ↔ ∀ c ∈ l, fadeValue kind b c = b := by
  induction l with
  | nil => simp
  | cons c cs ih =>
    rw [List.foldl_cons, List.forall_mem_cons]
    by_cases h : fadeValue kind b c = b
    · rw [fadeStep_same kind none ⟨b, none⟩ c h, ih]
      simp [h]
    · have moved := fadeStep_moves kind none ⟨b, none⟩ c h
      have named := foldl_fadeStep_winner kind none cs (fadeStep kind none ⟨b, none⟩ c) (by simp [moved])
      simp [h, named]

theorem mergeCovers_winner_none (kind : Kind) (home : Nat) (live fading : List Cover) :
    (mergeCovers kind home live fading).winner = none ↔
      live = [] ∧ ∀ c ∈ fading, fadeValue kind home c = home := by
  rw [mergeCovers_eq_foldl]
  cases ht : topCover kind live with
  | none =>
    have nobody := (topCover_eq_none kind live).1 ht
    subst nobody
    rw [mergeCovers_nobody, foldl_fadeStep_nobody]
    simp [(bySequence_perm fading).mem_iff]
  | some t =>
    have somebody : live ≠ [] := fun h => by
      rw [h] at ht
      cases ht
    have named := foldl_fadeStep_winner kind (some t) (bySequence fading) (mergeCovers kind home live [])
      (by simp [mergeCovers_top ht])
    simp [somebody, named]

/-- B after a fading-out contribution, by the place of its priority (R103, R104). -/
theorem fadedLevel_top (kind : Kind) (t : Cover) (b : Nat) (c : Cover) :
    (t.priority < c.priority → fadedLevel kind (some t) b c = fadeValue kind b c) ∧
    (c.priority < t.priority → fadedLevel kind (some t) b c = b) ∧
    (c.priority = t.priority → kind = .intensity → fadedLevel kind (some t) b c = max b (fadeValue kind b c)) ∧
    (c.priority = t.priority → kind ≠ .intensity → fadedLevel kind (some t) b c =
      if isBefore t.sequence c.sequence = true then fadeValue kind b c else b) := by
  refine ⟨fun above => if_pos above, fun below => ?_, fun same hk => ?_, fun same hk => ?_⟩
  · rw [fadedLevel, if_neg (Nat.lt_asymm below), if_pos below]
  · rw [fadedLevel, if_neg (by omega), if_neg (by omega), if_pos hk]
  · rw [fadedLevel, if_neg (by omega), if_neg (by omega), if_neg hk]

/-- Settles O57: the covers from the slots, the levels by their forms, the deciding member by the two relations in which
all others yield to it, and the fading-out ones by the fold of their steps in ascending sequence. -/
theorem mergingKeepsLevelsAndNamesAWinner : Obligations.MergingKeepsLevelsAndNamesAWinner := by
  refine ⟨fun s p => ?_, fun s x p i hs => s.positionOf_eq_some x p i hs, fun s c i p => ?_,
    fun kind home live fading => ?_, fun kind b c => ?_⟩
  · refine ⟨_, _, rfl, s.covers_pairwise _ fun k x hx => ?_, s.covers_pairwise _ fun k x hx => ?_,
      s.mem_covers _ _ (s.liveCover_eq_some p), s.mem_covers _ _ (s.fadingCover_eq_some p)⟩
    · obtain ⟨c, i, -, -, -, rfl⟩ := (s.liveCover_eq_some p k x).1 hx
      rfl
    · obtain ⟨c, i, -, -, -, rfl⟩ := (s.fadingCover_eq_some p k x).1 hx
      rfl
  · refine ⟨s.target_level c i, fun b d hf => ?_, s.target_list c i, s.effectiveLevel_target c i p,
      fun hp hk h1 => ?_⟩
    · rw [s.target_fan c i b d hf]
      exact ⟨clampLevel_below _, clampLevel_above _, clampLevel_within _⟩
    · rw [s.effectiveLevel_fading c i p hp hk]
      exact ⟨mixLevel_rise _ _ _, mixLevel_fall _ _ _ h1⟩
  · refine ⟨mergeCovers_level_le kind home live fading, rfl, rfl, fun c ht => ?_, mergeCovers_eq_foldl .., bySequence_perm _,
      fun base => bySequence_ascends base fading, mergeCovers_winner_none ..⟩
    obtain ⟨mem, yields⟩ := topCover_mem_yields ht
    refine ⟨mem, fun d hd => (yields d hd).elim Nat.le_of_lt fun same => Nat.le_of_eq same.1, fun hk d hd hp => ?_,
      topCover_latest ht, ?_, ?_⟩
    · exact (yields d hd).elim (fun lower => absurd hp (Nat.ne_of_lt lower)) fun same => same.2 hk
    · rw [mergeCovers_top ht]
    · rw [mergeCovers_top ht]
  · refine ⟨fun hk => if_pos hk, fun hk => if_neg hk, rfl, fun t => fadedLevel_top kind t b c, fun top x => ?_⟩
    exact ⟨fadeStep_level .., fun same => congrArg Merge.winner (fadeStep_same _ _ _ _ same), fadeStep_moves _ _ _ _⟩

end Sys2Proof.Machine
end

section
/-! PROOF. The render complete's hand-over (R22, R115, R137, R138, R156, R160 to R163): the values of lamp slots and tile
parameters, and what each line, each tile and each link takes, one stage after the other. -/

namespace Sys2Proof.Machine

/-! ### The values handed over (R22, R115) -/

section
variable (s : State) (l j : Nat)

theorem State.lineValues_get (hj : j < 384) : (s.lineValues l).get SlotValue.por j = s.lampValue l j := by
  rw [State.lineValues, Table.get_ofFn, if_pos hj]

theorem State.lampValue_unheld (h : s.occupant (lampOutput l j) = none) : s.lampValue l j = 0 := by
  rw [State.lampValue, h]

variable (p : Nat) (h : s.occupant (lampOutput l j) = some p) (m first : Nat)
include h

theorem State.lampValue_narrow (hb : (s.point p).binding = .lamp m first 1) :
    s.lampValue l j = levelProduct (s.result p).output 255 := by
  simp only [State.lampValue, h, hb]

theorem State.lampValue_wide (hb : (s.point p).binding = .lamp m first 2) :
    s.lampValue l j = if j = first then (s.result p).output / 256 else (s.result p).output % 256 := by
  simp only [State.lampValue, h, hb]

end

section
variable (s : State) (k : Nat) (q : Param) (empty : Nat)

theorem State.tileParam_unheld (h : s.occupant (tileOutput k q) = none) : s.tileParam k q empty = empty := by
  rw [State.tileParam, h]

theorem State.tileParam_held (p : Nat) (h : s.occupant (tileOutput k q) = some p) :
    s.tileParam k q empty = (s.result p).output := by
  rw [State.tileParam, h]

end

/-! ### A stage that takes each item once -/

/-- A relation that composes holds from the beginning to the end of a fold whose steps it holds of. -/
theorem State.each_related (R : State → State → Prop) (refl : ∀ s, R s s) (trans : ∀ s t u, R s t → R t u → R s u)
    {f : State → Nat → State} (step : ∀ s k, R s (f s k)) (s : State) (l : List Nat) : R s (s.each f l) := by
  induction l generalizing s with
  | nil => exact refl s
  | cons k ks ih => exact trans _ _ _ (step s k) (ih _)

/-- A fold over different items: each step keeps the ground, finds its own item as it was, leaves it taken, and touches no
other item. -/
theorem State.each_takes {f : State → Nat → State} (ground : State → Prop) (before after : Nat → State → Prop)
    (keeps : ∀ s k, ground s → ground (f s k)) (takes : ∀ s k, ground s → before k s → after k (f s k))
    (others : ∀ s j k, j ≠ k → (before j s → before j (f s k)) ∧ (after j s → after j (f s k)))
    (s : State) (l : List Nat) (hl : l.Nodup) (hg : ground s) (hb : ∀ k ∈ l, before k s) :
    ∀ k ∈ l, after k (s.each f l) := by
  induction l generalizing s with
  | nil => simp
  | cons k ks ih =>
    obtain ⟨fresh, rest⟩ := List.nodup_cons.1 hl
    have later : ∀ j ∈ ks, before j (f s k) := fun j hj =>
      (others s j k (by rintro rfl; exact fresh hj)).1 (hb j (List.mem_cons_of_mem _ hj))
    have stays (t : State) (js : List Nat) (out : k ∉ js) (h : after k t) : after k (t.each f js) := by
      induction js generalizing t with
      | nil => exact h
      | cons j js ihj =>
        obtain ⟨ne, out⟩ := List.ne_and_not_mem_of_not_mem_cons out
        exact ihj _ out ((others t k j ne).2 h)
    intro j hj
    rcases List.mem_cons.1 hj with rfl | hj
    · exact stays _ ks fresh (takes s j hg (hb j List.mem_cons_self))
    · exact ih (f s k) rest (keeps s k hg) later j hj

/-- No event that is pending in `s` has been cleared in `t`. -/
def PendingKept (s t : State) : Prop := ∀ k, (s.event k).pending = true → (t.event k).pending = true

theorem PendingKept.of_eq {s t : State} (h : t.events = s.events) : PendingKept s t := fun k hk => by
  unfold State.event at hk ⊢
  rwa [h]

theorem PendingKept.trans {s t u : State} (h : PendingKept s t) (g : PendingKept t u) : PendingKept s u :=
  fun k hk => g k (h k hk)

theorem PendingKept.raise (s : State) (e : EventKind) : PendingKept s (s.raise e) := fun k hk => by
  rw [State.event_raise]
  split
  · rfl
  · exact hk

theorem State.event_raised_pending (s : State) (e : EventKind) : ((s.raise e).event e.number).pending = true := by
  rw [State.event_raise, if_pos rfl]

/-! ### The lines (R137, R138) -/

/-- In `t` line l, which was `x`, has taken a set of values if it is enabled, with OUTPUT_SLIP where it was SENDING. -/
structure LineTook (x : Line) (values : Table Nat) (l : Nat) (t : State) : Prop where
  line : t.line l = if x.enabled then x.takeSet values else x
  slip : x.enabled = true → x.inFlight ≠ none → (t.event 12).pending = true

theorem LineTook.later {x : Line} {values : Table Nat} {l : Nat} {s t : State} (h : LineTook x values l s)
    (same : t.line l = s.line l) (pending : PendingKept s t) : LineTook x values l t :=
  ⟨same.trans h.line, fun on sending => pending 12 (h.slip on sending)⟩

section
variable (s : State) (l : Nat) (values : Table Nat)

theorem State.lineTakes_took : LineTook (s.line l) values l (s.lineTakes l values) := by
  unfold State.lineTakes
  dsimp only
  by_cases on : (s.line l).enabled = true
  · rw [if_pos on]
    have taken : (s.setLine l ((s.line l).takeSet values)).line l =
        if (s.line l).enabled then (s.line l).takeSet values else s.line l := by
      rw [if_pos on, State.line_setLine]
    split
    · exact ⟨taken, fun _ _ => State.event_raised_pending _ .outputSlip⟩
    · rename_i idle
      exact ⟨taken, fun _ sending => absurd (Option.isSome_iff_ne_none.2 sending) idle⟩
  · rw [if_neg on]
    exact ⟨(if_neg on).symm, fun h => absurd h on⟩

theorem State.lineTakes_frame : ∃ lines events, s.lineTakes l values = { s with lines := lines, events := events } := by
  unfold State.lineTakes
  dsimp only
  repeat' split
  all_goals exact ⟨_, _, rfl⟩

theorem State.lineTakes_other (j : Nat) (hj : j ≠ l) : (s.lineTakes l values).line j = s.line j := by
  have other := State.line_setLine_other s l j ((s.line l).takeSet values) hj
  unfold State.lineTakes
  dsimp only
  repeat' split
  · exact other
  · exact other
  · rfl

theorem PendingKept.lineTakes : PendingKept s (s.lineTakes l values) := by
  unfold State.lineTakes
  dsimp only
  repeat' split
  · exact PendingKept.raise (s.setLine l _) .outputSlip
  · exact .of_eq rfl
  · exact .of_eq rfl

end

/-- The first stage of the hand-over. -/
def State.linesTaken (s : State) : State := s.each (fun u l => u.lineTakes l (s.lineValues l)) (List.range 8)

theorem State.linesTaken_frame (s : State) :
    ∃ lines events, s.linesTaken = { s with lines := lines, events := events } :=
  State.each_related (fun s t => ∃ lines events, t = { s with lines := lines, events := events })
    (fun _ => ⟨_, _, rfl⟩) (by rintro _ _ _ ⟨_, _, rfl⟩ ⟨_, _, rfl⟩; exact ⟨_, _, rfl⟩)
    (fun u l => u.lineTakes_frame l _) s _

theorem State.linesTaken_took (s : State) (l : Nat) (hl : l < 8) :
    LineTook (s.line l) (s.lineValues l) l s.linesTaken := by
  refine State.each_takes (fun _ => True) (fun l u => u.line l = s.line l)
    (fun l u => LineTook (s.line l) (s.lineValues l) l u) (fun _ _ _ => trivial) (fun u k _ same => ?_)
    (fun u j k ne => ?_) s _ List.nodup_range trivial (fun _ _ => rfl) l (List.mem_range.2 hl)
  · rw [← same]
    exact u.lineTakes_took k _
  · have other := u.lineTakes_other k (s.lineValues k) j ne
    exact ⟨other.trans, fun h => h.later other (PendingKept.lineTakes u k _)⟩

/-! ### The tiles (R156, R157) -/

/-- A tile without its stores, its last sent image and its late count. -/
def Tile.shown (x : Tile) : Tile :=
  { x with currentStore := none, fromStore := none, lastSent := .empty, fetchLate := 0 }

theorem Tile.shown_lastSent (x : Tile) (sent : Image) : { x with lastSent := sent }.shown = x.shown := rfl

theorem Tile.shown_fetchLate (x : Tile) (n : Nat) : { x with fetchLate := n }.shown = x.shown := rfl

theorem Tile.shown_reads {x y : Tile} (h : y.shown = x.shown) :
    x.current = y.current ∧ x.fromSource = y.fromSource ∧ x.elapsed = y.elapsed :=
  ⟨(congrArg Tile.current h).symm, (congrArg Tile.fromSource h).symm, (congrArg Tile.elapsed h).symm⟩

/-- `y` is the tile `x` after it has taken its parameters, the frozen flag and its wanted source. -/
structure Tile.Took (x : Tile) (v : TileParams) (frozen : Bool) (wanted : Nat) (y : Tile) : Prop where
  params : y.params = v
  frozen : y.frozen = frozen
  current : y.current = wanted
  fields : y.fields = x.fields

theorem Tile.Took.of_shown {x : Tile} {v : TileParams} {frozen : Bool} {wanted : Nat} {y z : Tile}
    (h : x.Took v frozen wanted y) (same : z.shown = y.shown) : x.Took v frozen wanted z :=
  ⟨(congrArg Tile.params same).trans h.params, (congrArg Tile.frozen same).trans h.frozen,
    (congrArg Tile.current same).trans h.current, (congrArg Tile.fields same).trans h.fields⟩

theorem Tile.change_took (x : Tile) (wanted : Nat) (frozen : Bool) :
    x.Took x.params x.frozen wanted (x.change wanted frozen) := by
  unfold Tile.change
  repeat' split
  all_goals exact ⟨rfl, rfl, rfl, rfl⟩

/-- A write of a tile that leaves what it shows leaves what every tile shows. -/
theorem State.setTile_shown (s : State) (k : Nat) (x : Tile) (h : x.shown = (s.tile k).shown) (j : Nat) :
    ((s.setTile k x).tile j).shown = (s.tile j).shown := by
  by_cases hj : j = k
  · rw [hj, State.tile_setTile, h]
  · rw [State.tile_setTile_other _ _ _ _ hj]

theorem State.fillStores_shown (s : State) (f : Fetch) (j : Nat) :
    ((s.fillStores f).tile j).shown = (s.tile j).shown := by
  unfold State.fillStores
  exact s.setTile_shown _ _ (by rfl) j

theorem State.addFetch_shown (s : State) (k p j : Nat) : ((s.addFetch k p).tile j).shown = (s.tile j).shown := by
  unfold State.addFetch
  dsimp only
  split
  · exact State.fillStores_shown { s with fetches := s.fetches ++ [{ s.newFetch k p with ended := true }] } _ j
  · rfl

theorem State.fetchForCut_shown (s : State) (k j : Nat) : ((s.fetchForCut k).tile j).shown = (s.tile j).shown := by
  unfold State.fetchForCut
  dsimp only
  split
  · split
    · exact s.addFetch_shown _ _ _
    · rfl
  · rfl

section
variable (s : State) (k : Nat) (v : TileParams) (frozen : Bool)

theorem State.tileTakes_took :
    (s.tile k).Took v frozen (s.wantedSource v.source) ((s.tileTakes k v frozen).tile k) := by
  unfold State.tileTakes
  dsimp only
  split
  · rename_i same
    rw [State.tile_setTile]
    exact ⟨rfl, rfl, same.symm, rfl⟩
  · have changed := Tile.change_took { s.tile k with params := v, frozen := frozen } (s.wantedSource v.source) frozen
    have written : ((s.setTile k (Tile.change { s.tile k with params := v, frozen := frozen }
        (s.wantedSource v.source) frozen)).dropFetches k).tile k = _ := State.tile_setTile _ _ _
    rw [← written] at changed
    have took := Tile.Took.mk (x := s.tile k) changed.params changed.frozen changed.current changed.fields
    split
    · exact took.of_shown (State.fetchForCut_shown _ _ _)
    · exact took

theorem State.tileTakes_other (j : Nat) (hj : j ≠ k) :
    ((s.tileTakes k v frozen).tile j).shown = (s.tile j).shown := by
  have other (x : Tile) : (((s.setTile k x).dropFetches k).tile j).shown = (s.tile j).shown :=
    congrArg Tile.shown (State.tile_setTile_other s k j x hj)
  unfold State.tileTakes
  dsimp only
  repeat' split
  · exact other _
  · exact (State.fetchForCut_shown _ _ _).trans (other _)
  · exact other _

theorem State.fetchForCut_frame : ∃ tiles fetches, s.fetchForCut k = { s with tiles := tiles, fetches := fetches } := by
  unfold State.fetchForCut
  dsimp only
  split
  · split
    · exact ⟨_, _, (s.addFetch_spec k _).1⟩
    · exact ⟨_, _, rfl⟩
  · exact ⟨_, _, rfl⟩

theorem State.tileTakes_frame :
    ∃ tiles fetches, s.tileTakes k v frozen = { s with tiles := tiles, fetches := fetches } := by
  unfold State.tileTakes
  dsimp only
  split
  · exact ⟨_, _, rfl⟩
  · split
    · obtain ⟨tiles, fetches, frame⟩ := State.fetchForCut_frame ((s.setTile k _).dropFetches k) k
      exact ⟨tiles, fetches, frame⟩
    · exact ⟨_, _, rfl⟩

end

/-- The second stage of the hand-over. -/
def State.tilesTaken (s : State) : State :=
  s.each (fun u t => u.tileTakes t (s.tileParams t) (s.tileFrozen t)) (List.range 64)

theorem State.tilesTaken_frame (s : State) :
    ∃ tiles fetches, s.tilesTaken = { s with tiles := tiles, fetches := fetches } :=
  State.each_related (fun s t => ∃ tiles fetches, t = { s with tiles := tiles, fetches := fetches })
    (fun _ => ⟨_, _, rfl⟩) (by rintro _ _ _ ⟨_, _, rfl⟩ ⟨_, _, rfl⟩; exact ⟨_, _, rfl⟩)
    (fun u k => u.tileTakes_frame k _ _) s _

theorem State.wantedSource_congr {s t : State} (h : t.plates = s.plates) (v : Nat) :
    t.wantedSource v = s.wantedSource v := by
  unfold State.wantedSource State.plate
  rw [h]

theorem State.tilesTaken_took (s : State) (k : Nat) (hk : k < 64) :
    (s.tile k).Took (s.tileParams k) (s.tileFrozen k) (s.wantedSource (s.tileParams k).source)
      (s.tilesTaken.tile k) := by
  refine State.each_takes (fun u => u.plates = s.plates) (fun k u => (u.tile k).fields = (s.tile k).fields)
    (fun k u => (s.tile k).Took (s.tileParams k) (s.tileFrozen k) (s.wantedSource (s.tileParams k).source) (u.tile k))
    (fun u k ground => ?_) (fun u k ground same => ?_) (fun u j k ne => ?_) s _ List.nodup_range rfl (fun _ _ => rfl) k
    (List.mem_range.2 hk)
  · obtain ⟨tiles, fetches, frame⟩ := u.tileTakes_frame k (s.tileParams k) (s.tileFrozen k)
    exact (congrArg State.plates frame).trans ground
  · obtain ⟨params, froze, current, fields⟩ := u.tileTakes_took k (s.tileParams k) (s.tileFrozen k)
    exact ⟨params, froze, current.trans (State.wantedSource_congr ground _), fields.trans same⟩
  · have other := u.tileTakes_other k (s.tileParams k) (s.tileFrozen k) j ne
    exact ⟨(congrArg Tile.fields other).trans, fun h => h.of_shown other⟩

/-! ### The links (R160 to R163) -/

/-- What the settling of link l leaves alone: the lines, the timer, the other links, what the tiles show, the events that
are pending and the rests that are outstanding. -/
structure LinkStep (l : Nat) (s t : State) : Prop where
  lines : t.lines = s.lines
  timer : t.timer = s.timer
  links : ∀ j, j ≠ l → t.link j = s.link j
  shown : ∀ k, (t.tile k).shown = (s.tile k).shown
  pending : PendingKept s t
  idleDue : ∀ j ∈ s.work.idleDue, j ∈ t.work.idleDue

theorem LinkStep.refl (l : Nat) (s : State) : LinkStep l s s :=
  ⟨rfl, rfl, fun _ _ => rfl, fun _ => rfl, .of_eq rfl, fun _ h => h⟩

theorem LinkStep.trans {l : Nat} {s t u : State} (h : LinkStep l s t) (g : LinkStep l t u) : LinkStep l s u :=
  ⟨g.lines.trans h.lines, g.timer.trans h.timer, fun j hj => (g.links j hj).trans (h.links j hj),
    fun k => (g.shown k).trans (h.shown k), h.pending.trans g.pending, fun j hj => g.idleDue j (h.idleDue j hj)⟩

section
variable (l : Nat) (s : State)

theorem LinkStep.setLink (x : Link) : LinkStep l s (s.setLink l x) :=
  ⟨rfl, rfl, fun j hj => State.link_setLink_other s l j x hj, fun _ => rfl, .of_eq rfl, fun _ h => h⟩

theorem LinkStep.raise (e : EventKind) : LinkStep l s (s.raise e) :=
  ⟨rfl, rfl, fun _ _ => rfl, fun _ => rfl, .raise s e, fun _ h => h⟩

theorem LinkStep.setTile (k : Nat) (x : Tile) (h : x.shown = (s.tile k).shown) : LinkStep l s (s.setTile k x) :=
  ⟨rfl, rfl, fun _ _ => rfl, s.setTile_shown k x h, .of_eq rfl, fun _ h => h⟩

theorem LinkStep.countLatePlate (v : Nat) : LinkStep l s (s.countLatePlate v) := by
  rw [State.countLatePlate_frame]
  exact ⟨rfl, rfl, fun _ _ => rfl, fun _ => rfl, .of_eq rfl, fun _ h => h⟩

theorem LinkStep.setDraws (n : Nat) : LinkStep l s { s with draws := n } :=
  ⟨rfl, rfl, fun _ _ => rfl, fun _ => rfl, .of_eq rfl, fun _ h => h⟩

theorem LinkStep.setIdleDue (due : List Nat) (h : ∀ j ∈ s.work.idleDue, j ∈ due) :
    LinkStep l s (s.setWork { s.work with idleDue := due }) :=
  ⟨rfl, rfl, fun _ _ => rfl, fun _ => rfl, .of_eq rfl, h⟩

theorem LinkStep.beginImage (past : Bool) (v : TileSet) : LinkStep l s (s.beginImage past v) := by
  by_cases late : s.lateSources v.tile = []
  · have sent := setTile l s v.tile { s.tile v.tile with lastSent := s.outputImage past v } (Tile.shown_lastSent _ _)
    have drawn := setDraws l (s.setTile v.tile { s.tile v.tile with lastSent := s.outputImage past v }) (s.draws + 1)
    rw [s.beginImage_formed past v late]
    exact sent.trans drawn
  · have counted := setTile l (s.raise .fetchLate) v.tile
      { s.tile v.tile with fetchLate := saturate 65535 (s.tile v.tile).fetchLate } (Tile.shown_fetchLate _ _)
    rw [s.beginImage_late past v late]
    exact ((raise l s .fetchLate).trans counted).trans
      (State.each_related (LinkStep l) (refl l) (fun _ _ _ => trans) (fun u p => countLatePlate l u p) _ _)

theorem LinkStep.beginPacket (f : LinkFrame) (place : Nat) : LinkStep l s (s.beginPacket f place) := by
  cases hv : f.setAt place with
  | none =>
    rw [s.beginPacket_without_tile f place hv]
    exact .refl l s
  | some v =>
    rw [s.beginPacket_of_tile f place v hv]
    exact beginImage l s f.past v

/-- A packet's beginning touches no link. -/
theorem State.beginPacket_link (f : LinkFrame) (place j : Nat) : (s.beginPacket f place).link j = s.link j := by
  by_cases hj : j = place
  · exact (LinkStep.beginPacket (place + 1) s f place).links j (by omega)
  · exact (LinkStep.beginPacket place s f place).links j hj

theorem LinkStep.linkTakes (content : LinkContent) : LinkStep l s (s.linkTakes l content) := by
  unfold State.linkTakes
  dsimp only
  split
  · exact ((setLink l s _).trans (setLink l _ _)).trans (beginPacket l _ _ _)
  · exact (setLink l s _).trans (raise l _ _)

/-- The idle count of an ACTIVE link after a render complete (R163). -/
def Link.idleAfter (x : Link) (lit : Bool) : Nat := if lit then 0 else saturate 65535 x.idleCount

/-- A STANDBY link that is not lit stays as it is. -/
theorem State.settleLink_standby_dark (hs : (s.link l).state = .standby) (hl : s.linkLit l = false) :
    s.settleLink l = s := by
  rw [State.settleLink, hs, hl]
  rfl

theorem State.settleLink_standby_lit (hs : (s.link l).state = .standby) (hl : s.linkLit l = true) :
    s.settleLink l = (s.setLink l { s.link l with state := .waking, wakeCount := 0 }).linkTakes l .black := by
  rw [State.settleLink, hs, hl]
  rfl

theorem State.settleLink_waking (hs : (s.link l).state = .waking) : s.settleLink l = s.linkTakes l .black := by
  rw [State.settleLink, hs]

/-- What an ACTIVE link's settling writes first: its idle count. -/
def State.countIdle : State := s.setLink l { s.link l with idleCount := (s.link l).idleAfter (s.linkLit l) }

theorem State.settleLink_expired (hs : (s.link l).state = .active)
    (he : (s.link l).idlePeriod ≠ 0 ∧ (s.link l).idlePeriod ≤ (s.link l).idleAfter (s.linkLit l)) :
    s.settleLink l =
      (s.countIdle l).setWork { s.work with idleDue := s.work.idleDue ++ [l] } := by
  unfold State.settleLink State.countIdle
  simp only [hs]
  exact if_pos he

theorem State.settleLink_active (hs : (s.link l).state = .active)
    (he : ¬ ((s.link l).idlePeriod ≠ 0 ∧ (s.link l).idlePeriod ≤ (s.link l).idleAfter (s.linkLit l))) :
    s.settleLink l = (s.countIdle l).linkTakes l (s.activeContent l) := by
  unfold State.settleLink State.countIdle
  simp only [hs]
  exact if_neg he

theorem LinkStep.settleLink : LinkStep l s (s.settleLink l) := by
  cases hs : (s.link l).state with
  | standby =>
    cases hl : s.linkLit l with
    | false =>
      rw [State.settleLink_standby_dark l s hs hl]
      exact refl l s
    | true =>
      rw [State.settleLink_standby_lit l s hs hl]
      exact (setLink l s _).trans (linkTakes l _ _)
  | waking =>
    rw [State.settleLink_waking l s hs]
    exact linkTakes l s _
  | active =>
    by_cases he : (s.link l).idlePeriod ≠ 0 ∧ (s.link l).idlePeriod ≤ (s.link l).idleAfter (s.linkLit l)
    · rw [State.settleLink_expired l s hs he]
      exact (setLink l s _).trans (setIdleDue l (s.countIdle l) _ fun _ h => List.mem_append_left _ h)
    · rw [State.settleLink_active l s hs he]
      exact (setLink l s _).trans (linkTakes l _ _)

end

/-- The set a link takes in a render of a timer `x` (R160). -/
def Link.nextFrame (y : Link) (x : Timer) (content : LinkContent) : LinkFrame :=
  ⟨(y.sequence + 1) % 256, x.counter, x.timedFromRef, content, false⟩

/-- In `t` link l, which was `y`, has taken a set: begun where it was IDLE, waiting with a slip where it was SENDING. -/
structure LinkTook (y : Link) (x : Timer) (content : LinkContent) (l : Nat) (t : State) : Prop where
  idle : y.inFlight = none →
    t.link l = { y with sequence := (y.sequence + 1) % 256, inFlight := some ⟨y.nextFrame x content, 0⟩ }
  sending : y.inFlight ≠ none → (t.event 12).pending = true ∧
    t.link l = { y with sequence := (y.sequence + 1) % 256, waiting := some (y.nextFrame x content),
                        slips := saturate 65535 y.slips,
                        drops := if y.waiting.isSome then saturate 65535 y.drops else y.drops }

theorem LinkTook.later {y : Link} {x : Timer} {content : LinkContent} {l : Nat} {s t : State}
    (h : LinkTook y x content l s) (same : t.link l = s.link l) (pending : PendingKept s t) :
    LinkTook y x content l t :=
  ⟨fun idle => same.trans (h.idle idle), fun sending =>
    ⟨pending 12 (h.sending sending).1, same.trans (h.sending sending).2⟩⟩

theorem State.linkTakes_took (s : State) (l : Nat) (content : LinkContent) :
    LinkTook (s.link l) s.timer content l (s.linkTakes l content) := by
  refine ⟨fun idle => ?_, fun sending => ?_⟩
  · rw [State.linkTakes, idle]
    dsimp only
    rw [State.beginLinkFrame, State.beginPacket_link, State.link_setLink, State.link_setLink]
    rfl
  · obtain ⟨f, hf⟩ := Option.ne_none_iff_exists'.1 sending
    simp only [State.linkTakes, hf]
    exact ⟨State.event_raised_pending _ .outputSlip, State.link_setLink s l _⟩

/-- As `linkTakes_took`, of a link that has just been written. -/
theorem State.linkTakes_written (s : State) (l : Nat) (y : Link) (content : LinkContent) :
    LinkTook y s.timer content l ((s.setLink l y).linkTakes l content) := by
  have took := (s.setLink l y).linkTakes_took l content
  rw [State.link_setLink] at took
  exact took

/-- In `t` link l, which was `x`, has been settled with a frame of a timer, lit or not (R162, R163). -/
structure LinkSettled (x : Link) (lit : Bool) (timer : Timer) (content : LinkContent) (l : Nat) (t : State) : Prop where
  rests : x.state = .standby → lit = false → t.link l = x
  wakes : x.state = .standby → lit = true → LinkTook { x with state := .waking, wakeCount := 0 } timer .black l t
  waking : x.state = .waking → LinkTook x timer .black l t
  active : x.state = .active → ¬ (x.idlePeriod ≠ 0 ∧ x.idlePeriod ≤ x.idleAfter lit) →
    LinkTook { x with idleCount := x.idleAfter lit } timer content l t
  expires : x.state = .active → x.idlePeriod ≠ 0 ∧ x.idlePeriod ≤ x.idleAfter lit →
    l ∈ t.work.idleDue ∧ t.link l = { x with idleCount := x.idleAfter lit }

theorem LinkSettled.later {x : Link} {lit : Bool} {timer : Timer} {content : LinkContent} {l j : Nat} {s t : State}
    (h : LinkSettled x lit timer content l s) (ne : l ≠ j) (step : LinkStep j s t) :
    LinkSettled x lit timer content l t := by
  have same := step.links l ne
  refine ⟨fun hs hl => same.trans (h.rests hs hl), fun hs hl => (h.wakes hs hl).later same step.pending,
    fun hs => (h.waking hs).later same step.pending, fun hs hi => (h.active hs hi).later same step.pending,
    fun hs hi => ?_⟩
  obtain ⟨due, link⟩ := h.expires hs hi
  exact ⟨step.idleDue l due, same.trans link⟩

theorem State.settleLink_settled (s : State) (l : Nat) :
    LinkSettled (s.link l) (s.linkLit l) s.timer (s.activeContent l) l (s.settleLink l) where
  rests hs hl := by rw [State.settleLink_standby_dark l s hs hl]
  wakes hs hl := by
    rw [State.settleLink_standby_lit l s hs hl]
    exact s.linkTakes_written l _ _
  waking hs := by
    rw [State.settleLink_waking l s hs]
    exact s.linkTakes_took l _
  active hs he := by
    rw [State.settleLink_active l s hs he]
    exact s.linkTakes_written l _ _
  expires hs he := by
    rw [State.settleLink_expired l s hs he]
    exact ⟨List.mem_append_right _ (List.mem_singleton_self l), State.link_setLink s l _⟩

section
variable {s t : State} (same : ∀ k, (t.tile k).shown = (s.tile k).shown)
include same

theorem State.linkLit_congr (l : Nat) : t.linkLit l = s.linkLit l := by
  have fields (k : Nat) : (t.tile k).fields = (s.tile k).fields := (congrArg Tile.fields (same k) :)
  have params (k : Nat) : (t.tile k).params = (s.tile k).params := (congrArg Tile.params (same k) :)
  simp only [State.linkLit, fields, params]

theorem State.activeContent_congr (l : Nat) : t.activeContent l = s.activeContent l := by
  have fields (k : Nat) : (t.tile k).fields = (s.tile k).fields := (congrArg Tile.fields (same k) :)
  have tileAt (place : Nat) : t.tileAt l place = s.tileAt l place := by simp only [State.tileAt, fields]
  have tileSet : t.tileSet = s.tileSet := by
    funext k
    have params : (t.tile k).params = (s.tile k).params := (congrArg Tile.params (same k) :)
    have current : (t.tile k).current = (s.tile k).current := (congrArg Tile.current (same k) :)
    have fromSource : (t.tile k).fromSource = (s.tile k).fromSource := (congrArg Tile.fromSource (same k) :)
    have elapsed : (t.tile k).elapsed = (s.tile k).elapsed := (congrArg Tile.elapsed (same k) :)
    simp only [State.tileSet, fields, params, current, fromSource, elapsed]
  simp only [State.activeContent, tileAt, tileSet]

end

/-- The third stage of the hand-over. -/
def State.linksSettled (s : State) : State := s.each State.settleLink (List.range 4)

theorem State.linksSettled_keeps (s : State) :
    s.linksSettled.lines = s.lines ∧ (∀ k, (s.linksSettled.tile k).shown = (s.tile k).shown) ∧
      PendingKept s s.linksSettled := by
  have steps := State.each_related
    (fun s t => t.lines = s.lines ∧ (∀ k, (t.tile k).shown = (s.tile k).shown) ∧ PendingKept s t)
    (fun _ => ⟨rfl, fun _ => rfl, .of_eq rfl⟩)
    (fun _ _ _ h g => ⟨g.1.trans h.1, fun k => (g.2.1 k).trans (h.2.1 k), h.2.2.trans g.2.2⟩)
    (f := State.settleLink)
    (fun u l =>
      let step := LinkStep.settleLink l u
      ⟨step.lines, step.shown, step.pending⟩)
  exact steps s _

theorem State.linksSettled_settled (s : State) (l : Nat) (hl : l < 4) :
    LinkSettled (s.link l) (s.linkLit l) s.timer (s.activeContent l) l s.linksSettled := by
  refine State.each_takes (fun u => u.timer = s.timer ∧ ∀ k, (u.tile k).shown = (s.tile k).shown)
    (fun l u => u.link l = s.link l)
    (fun l u => LinkSettled (s.link l) (s.linkLit l) s.timer (s.activeContent l) l u)
    (fun u k ground => ?_) (fun u k ground link => ?_) (fun u j k ne => ?_) s _ List.nodup_range ⟨rfl, fun _ => rfl⟩
    (fun _ _ => rfl) l (List.mem_range.2 hl)
  · obtain ⟨timer, shown⟩ := ground
    have step := LinkStep.settleLink k u
    exact ⟨step.timer.trans timer, fun j => (step.shown j).trans (shown j)⟩
  · obtain ⟨timer, shown⟩ := ground
    rw [← link, ← timer, ← State.linkLit_congr shown, ← State.activeContent_congr shown]
    exact u.settleLink_settled k
  · have step := LinkStep.settleLink k u
    exact ⟨(step.links j ne).trans, fun h => h.later ne step⟩

/-! ### The hand-over as a whole -/

/-- The lines and the tiles have taken what is theirs. -/
def State.outputsTaken (s : State) : State := s.linesTaken.tilesTaken

theorem State.handOver_stages (s : State) : s.handOver = s.outputsTaken.linksSettled := rfl

theorem State.tileAt_lt {s : State} {l place k : Nat} (h : s.tileAt l place = some k) : k < 64 :=
  List.mem_range.1 (List.mem_of_find?_eq_some h)

section
variable (s : State)

/-- The lines' and the tiles' stages change neither links nor timer; the tiles' stage changes no line and no event. -/
theorem State.outputsTaken_same :
    s.outputsTaken.links = s.links ∧ s.outputsTaken.timer = s.timer ∧ s.outputsTaken.lines = s.linesTaken.lines ∧
      s.outputsTaken.events = s.linesTaken.events := by
  obtain ⟨lines, events, first⟩ := s.linesTaken_frame
  obtain ⟨tiles, fetches, second⟩ := s.linesTaken.tilesTaken_frame
  rw [State.outputsTaken, second, first]
  exact ⟨rfl, rfl, rfl, rfl⟩

/-- The lines' stage changes nothing that the tiles' stage reads. -/
theorem State.linesTaken_reads (k : Nat) :
    s.linesTaken.tile k = s.tile k ∧ s.linesTaken.tileParams k = s.tileParams k ∧
      s.linesTaken.tileFrozen k = s.tileFrozen k ∧ ∀ v, s.linesTaken.wantedSource v = s.wantedSource v := by
  obtain ⟨lines, events, frame⟩ := s.linesTaken_frame
  rw [frame]
  exact ⟨rfl, rfl, rfl, fun _ => rfl⟩

theorem State.outputsTaken_tile (k : Nat) (hk : k < 64) :
    (s.tile k).Took (s.tileParams k) (s.tileFrozen k) (s.wantedSource (s.tileParams k).source)
      (s.outputsTaken.tile k) := by
  obtain ⟨tile, params, frozen, wanted⟩ := s.linesTaken_reads k
  have took := s.linesTaken.tilesTaken_took k hk
  rwa [tile, params, frozen, wanted] at took

theorem State.handOver_line (l : Nat) (hl : l < 8) : LineTook (s.line l) (s.lineValues l) l s.handOver := by
  obtain ⟨-, -, lines, events⟩ := s.outputsTaken_same
  obtain ⟨settled, -, pending⟩ := s.outputsTaken.linksSettled_keeps
  have same : s.outputsTaken.linksSettled.line l = s.linesTaken.line l :=
    congrArg (Table.get · Line.por l) (settled.trans lines)
  rw [State.handOver_stages]
  exact (s.linesTaken_took l hl).later same (PendingKept.trans (.of_eq events) pending)

theorem State.handOver_shown (k : Nat) : (s.handOver.tile k).shown = (s.outputsTaken.tile k).shown := by
  obtain ⟨-, shown, -⟩ := s.outputsTaken.linksSettled_keeps
  rw [State.handOver_stages]
  exact shown k

/-- Tests that agree on a list find the same in it. -/
theorem find?_of_agree {α : Type} {f g : α → Bool} {l : List α} (h : ∀ a ∈ l, f a = g a) : l.find? f = l.find? g := by
  induction l with
  | nil => rfl
  | cons a l ih =>
    rw [List.find?_cons, List.find?_cons, h a List.mem_cons_self, ih fun b hb => h b (List.mem_cons_of_mem a hb)]

theorem State.tileAt_congr {s t : State} (h : t.tiles = s.tiles) (l place : Nat) :
    t.tileAt l place = s.tileAt l place := by
  unfold State.tileAt State.tile
  rw [h]

theorem State.tileAt_taken (l place : Nat) : s.outputsTaken.tileAt l place = s.tileAt l place := by
  refine find?_of_agree fun k hk => ?_
  rw [(s.outputsTaken_tile k (List.mem_range.1 hk)).fields]

/-- The sixteen places of the frame that an ACTIVE link takes. -/
def State.placesTaken (l : Nat) : List (Option TileSet) :=
  (List.range 16).map fun place => (s.tileAt l place).map s.outputsTaken.tileSet

theorem State.activeContent_taken (l : Nat) : s.outputsTaken.activeContent l = .active (s.placesTaken l) := by
  simp only [State.activeContent, State.placesTaken, State.tileAt_taken]

theorem State.placesTaken_length (l : Nat) : (s.placesTaken l).length = 16 := by
  rw [State.placesTaken, List.length_map, List.length_range]

theorem State.placesTaken_get (l j : Nat) (hj : j < 16) :
    (s.placesTaken l).getD j none = (s.tileAt l j).map s.outputsTaken.tileSet := by
  simp [State.placesTaken, hj]

theorem State.handOver_link (l : Nat) (hl : l < 4) :
    LinkSettled (s.link l) (s.outputsTaken.linkLit l) s.timer (.active (s.placesTaken l)) l s.handOver := by
  obtain ⟨links, timer, -, -⟩ := s.outputsTaken_same
  have same : s.outputsTaken.link l = s.link l := congrArg (Table.get · Link.por l) links
  have settled := s.outputsTaken.linksSettled_settled l hl
  rwa [same, timer, State.activeContent_taken] at settled

/-- A link is lit by an enabled tile of it that has taken a GAIN above 0 (R162, R163). -/
theorem State.linkLit_iff (l : Nat) :
    s.outputsTaken.linkLit l = true ↔
      ∃ k < 64, (s.tile k).fields.enabled = true ∧ (s.tile k).fields.link = l ∧ (s.tileParams k).gain ≠ 0 := by
  have taken (k : Nat) (hk : k < 64) := s.outputsTaken_tile k hk
  simp only [State.linkLit, List.any_eq_true, List.mem_range, Bool.and_eq_true, beq_iff_eq, bne_iff_ne, and_assoc]
  refine exists_congr fun k => and_congr_right fun hk => ?_
  rw [(taken k hk).fields, (taken k hk).params]

theorem State.tileSet_reads (k : Nat) :
    (s.tileSet k).tile = k ∧ (s.tileSet k).params = (s.tile k).params ∧ (s.tileSet k).current = (s.tile k).current ∧
      (s.tileSet k).fromSource = (s.tile k).fromSource ∧ (s.tileSet k).elapsed = (s.tile k).elapsed :=
  ⟨rfl, rfl, rfl, rfl, rfl⟩

/-- A place of the frame holds its tile with the parameters, the sources and the dissolve that a later state shows. -/
theorem State.placesTaken_spec (t : State) (same : ∀ k, (t.tile k).shown = (s.outputsTaken.tile k).shown)
    (l j : Nat) (hj : j < 16) :
    ((s.placesTaken l).getD j none).map TileSet.tile = s.tileAt l j ∧
      ∀ v, (s.placesTaken l).getD j none = some v → v.params = s.tileParams v.tile ∧
        v.current = (t.tile v.tile).current ∧ v.fromSource = (t.tile v.tile).fromSource ∧
        v.elapsed = (t.tile v.tile).elapsed := by
  rw [s.placesTaken_get l j hj]
  cases at_ : s.tileAt l j with
  | none => exact ⟨rfl, fun v hv => nomatch hv⟩
  | some k =>
    refine ⟨rfl, fun v hv => ?_⟩
    obtain rfl : s.outputsTaken.tileSet k = v := Option.some.inj hv
    obtain ⟨tile, params, current, fromSource, elapsed⟩ := s.outputsTaken.tileSet_reads k
    rw [tile, params, current, fromSource, elapsed]
    exact ⟨(s.outputsTaken_tile k (State.tileAt_lt at_)).params, Tile.shown_reads (same k)⟩

/-- Publishing the results leaves lines, tiles, links, plates and timer. -/
theorem State.publish_keeps :
    s.publish.lines = s.lines ∧ s.publish.tiles = s.tiles ∧ s.publish.links = s.links ∧
      s.publish.plates = s.plates ∧ s.publish.timer = s.timer := by
  simp only [State.publish, and_self]

end

/-- `t` is what the render complete leaves of lines, tiles and links where `u` is the state with the results. -/
structure OutputsTaken (u t : State) : Prop where
  line : ∀ l < 8, LineTook (u.line l) (u.lineValues l) l t
  shown : ∀ k, (t.tile k).shown = (u.outputsTaken.tile k).shown
  link : ∀ l < 4, LinkSettled (u.link l) (u.outputsTaken.linkLit l) u.timer (.active (u.placesTaken l)) l t

theorem State.handOver_takes (u : State) : OutputsTaken u u.handOver :=
  ⟨u.handOver_line, u.handOver_shown, u.handOver_link⟩

/-- The end of the render's frame work touches no line, no tile and no link. -/
theorem OutputsTaken.setPhase {u t : State} (h : OutputsTaken u t) (phase : FramePhase) :
    OutputsTaken u (t.setWork { t.work with phase := phase }) where
  line l hl := (h.line l hl).later rfl (.of_eq rfl)
  shown := h.shown
  link l hl := (h.link l hl).later (Nat.ne_of_lt l.lt_succ_self)
    ⟨rfl, rfl, fun _ _ => rfl, fun _ => rfl, .of_eq rfl, fun _ due => due⟩

theorem exec_renderComplete_handsOver (s : State) (hd : s.device = .running) (hp : s.work.phase = .rendering)
    (he : s.work.evaluation = none) (hc : s.softClear ≠ .waiting) :
    ∃ t, exec .renderComplete s = .next t ∧ OutputsTaken s.publish t := by
  rw [exec_renderComplete s hd hp he, s.completeRender_eq hc]
  exact ⟨_, rfl, s.publish.handOver_takes.setPhase .idle⟩

/-- The idle count that an ACTIVE link keeps is short of its period (R163). -/
theorem Link.idleAfter_short (x : Link) (lit : Bool)
    (h : x.idlePeriod = 0 ∨ lit = true ∨ saturate 65535 x.idleCount < x.idlePeriod) :
    ¬ (x.idlePeriod ≠ 0 ∧ x.idlePeriod ≤ x.idleAfter lit) := by
  unfold Link.idleAfter
  rcases h with h | rfl | h
  · omega
  · rw [if_pos rfl]
    omega
  · split <;> omega

/-- Settles O43: the values of the outputs by their holders, and the three stages of the hand-over, each of which the
later ones leave as it stands. -/
theorem renderCompleteHandsItsOutputsOver : Obligations.RenderCompleteHandsItsOutputsOver := by
  refine ⟨State.lineValues_get,
    fun s l j => ⟨s.lampValue_unheld l j, fun p m first held => ⟨?_, fun hb => ?_, fun hb ne => ?_⟩⟩,
    fun s k q empty => ⟨s.tileParam_unheld k q empty, s.tileParam_held k q empty⟩, fun s hd hp he hc => ?_⟩
  · exact s.lampValue_narrow l j p held m first
  · rw [s.lampValue_wide l j p held m j hb, if_pos rfl]
  · rw [s.lampValue_wide l j p held m first hb, if_neg ne]
  obtain ⟨t, ran, lines, shown, links⟩ := exec_renderComplete_handsOver s hd hp he hc
  obtain ⟨publishedLines, publishedTiles, publishedLinks, publishedPlates, publishedTimer⟩ := s.publish_keeps
  have line (l : Nat) : s.publish.line l = s.line l := congrArg (Table.get · Line.por l) publishedLines
  have tile (k : Nat) : s.publish.tile k = s.tile k := congrArg (Table.get · Tile.por k) publishedTiles
  have link (l : Nat) : s.publish.link l = s.link l := congrArg (Table.get · Link.por l) publishedLinks
  refine ⟨t, ran, fun l hl => ?_, fun k hk => ?_, fun l hl => ?_⟩
  · obtain ⟨took, slip⟩ := lines l hl
    rw [line] at took slip
    refine ⟨fun off => took.trans (if_neg (by rw [off]; decide)), fun on idle => ?_,
      fun on sending => ⟨slip on sending, ?_⟩⟩
    · exact took.trans ((if_pos on).trans (Line.takeSet_idle _ _ idle))
    · obtain ⟨f, hf⟩ := Option.ne_none_iff_exists'.1 sending
      exact took.trans ((if_pos on).trans (Line.takeSet_sending _ _ f hf))
  · obtain ⟨params, frozen, current, fields⟩ := (s.publish.outputsTaken_tile k hk).of_shown (shown k)
    rw [State.wantedSource_congr publishedPlates] at current
    rw [tile] at fields
    exact ⟨params, frozen, current, fields⟩
  · have lit := s.publish.linkLit_iff l
    simp only [tile] at lit
    have settled := links l hl
    rw [link, publishedTimer] at settled
    have places (j : Nat) (hj : j < 16) := s.publish.placesTaken_spec t shown l j hj
    simp only [State.tileAt_congr publishedTiles] at places
    intro x n isLit takes
    change _ ↔ isLit at lit
    refine ⟨fun hs dark => ?_, fun hs isLit => ?_, fun hs => ?_, fun hs short => ?_, fun hs period dark expired => ?_⟩
    · exact settled.rests hs (Bool.eq_false_iff.2 fun h => dark (lit.1 h))
    · obtain ⟨begun, waits⟩ := settled.wakes hs (lit.2 isLit)
      exact ⟨begun, waits⟩
    · obtain ⟨begun, waits⟩ := settled.waking hs
      exact ⟨begun, waits⟩
    · obtain ⟨begun, waits⟩ := settled.active hs (x.idleAfter_short _ (short.imp_right (.imp_left lit.2)))
      exact ⟨s.publish.placesTaken l, x.idleAfter (s.publish.outputsTaken.linkLit l),
        fun h => if_pos (lit.2 h), fun h => if_neg fun g => h (lit.1 g), ⟨begun, waits⟩,
        s.publish.placesTaken_length l, places⟩
    · have count : x.idleAfter (s.publish.outputsTaken.linkLit l) = saturate 65535 x.idleCount :=
        if_neg fun g => dark (lit.1 g)
      obtain ⟨due, written⟩ := settled.expires hs (by rw [count]; exact ⟨Nat.ne_of_gt period, expired⟩)
      rw [count] at written
      exact ⟨due, written⟩

end Sys2Proof.Machine
end
